-- ==== Sys2Proof/Word.lean ====
section
/-!
DEFINITION. Word.lean: the words of the bus-packet decoder, each with the width the spec gives it.
Every value is unsigned (spec/00_scope.md R8).
-/

namespace Sys2Proof

/-- A byte of the input stream, and a decoded data value (`DATA_WIDTH` = 8, R7). -/
abbrev Byte := BitVec 8

/-- A GPIO register snapshot: `reg_a` or `reg_b` (`REG_WIDTH` = 32, R7). -/
abbrev Word := BitVec 32

/-- A decoded bus address (`ADDR_WIDTH` = 13, R7). -/
abbrev Addr := BitVec 13

/-- A packet word `P`: `reg_a` is `P[31:0]` and `reg_b` is `P[63:32]` (R37). -/
abbrev Packet := BitVec 64

/-- A command word `C`: the kind is `C[65:64]` and the payload is `C[63:0]` (R58). -/
abbrev Command := BitVec 66

/-- A sequence number or a window counter (`SEQ_WIDTH` = `COUNT_WIDTH` = 64, R7).
Addition wraps modulo 2^64, which is the spec's `+₆₄` (R9). -/
abbrev Count := BitVec 64

/-- A time in ticks (`TIME_WIDTH` = 64, R7). -/
abbrev Time := BitVec 64

end Sys2Proof
end

