-- ==== Sys2Proof/Config.lean ====
section
/-!
DEFINITION. Config.lean: the configuration of one block (spec/10_state.md R22), the parameters the spec leaves OPEN
(spec/00_scope.md R7), and the configuration of this hardware.
-/

namespace Sys2Proof

/-- The configuration of a block, constant from construction on (spec/10_state.md R22), with the two OPEN
parameters of spec/00_scope.md R7 that the block's rules name. A value of this type need not be legal:
`Machine.configCheck` is the check of spec/40_bit_permutation.md R68. -/
structure Config where
  /-- `ADDR_POS`: entry `i` is the position in `reg_a` of address bit `i`. -/
  addrPos : List Nat
  /-- `DATA_POS`: entry `i` is the position in `reg_b` of data bit `i`. -/
  dataPos : List Nat
  /-- `D1_SRC`: the position in `reg_a` that is OR'd into data bit 0. -/
  d1Src : Nat
  /-- `WE_BIT`: the position in `reg_b` of the write-enable strobe. -/
  weBit : Nat
  /-- `OE_BIT`: the position in `reg_b` of the output-enable strobe. -/
  oeBit : Nat
  /-- `WINDOW_TICKS`: the window duration, 64 bits. -/
  windowTicks : Time
  /-- `TICKS_PER_SECOND`: the unit of `now`; it enters no state, only the derived metrics (R96) and the check. -/
  ticksPerSecond : Nat
  /-- `SEQ_BASE`: the sequence number of the first valid event after a reset. -/
  seqBase : Count
  deriving DecidableEq, Repr

/-- OPEN (R7, D5): `TICKS_PER_SECOND` less one. DEDUCED: `TICKS_PER_SECOND` is positive, and it fits in 64 bits
because the default window duration is `TICKS_PER_SECOND` ticks in a 64-bit field (log entry 3). -/
opaque Config.openTicksLessOne : Fin (18446744073709551614 + 1)

/-- OPEN (R7, D8): `SEQ_BASE` (log entry 3). -/
opaque Config.openSeqBase : Count

/-- OPEN (spec/70_reset_and_hazards.md R128): `now0`, the environment's time when the block is constructed
(log entry 3). -/
opaque Config.launchTime : Time

/-- This hardware's configuration: the fixed values of spec/00_scope.md R7, the default window duration
`TICKS_PER_SECOND`, and the OPEN parameters. -/
def Config.hw : Config where
  addrPos := [3, 12, 13, 16, 17, 18, 19, 20, 21, 22, 23, 24, 25]
  dataPos := [2, 28, 29, 16, 12, 11, 10, 3]
  d1Src := 2
  weBit := 0
  oeBit := 1
  windowTicks := BitVec.ofNatLT (openTicksLessOne.val + 1) (by have := openTicksLessOne.isLt; omega)
  ticksPerSecond := openTicksLessOne.val + 1
  seqBase := openSeqBase

end Sys2Proof
end

