-- ==== Sys2Proof/Syntax.lean ====
section
/-!
DEFINITION. Syntax.lean: the operations of a packet, the one instruction type (a constructor for each row of
spec/opcode_table.json), the two wire formats, and the lines of the spec's assembler text.
-/

namespace Sys2Proof

/-- The operation of a packet (spec/00_scope.md R12), in the order of the source's enumeration. -/
inductive Op where
  /-- READ: WE high and OE low. -/
  | read
  /-- WRITE: WE low. -/
  | write
  /-- UNKNOWN: both strobes high. -/
  | unknown
  deriving DecidableEq, Repr

/-- One row of spec/opcode_table.json for each constructor.
The three packet classes carry the packet's two operands (spec/30_encoding.md R55).
The four transactions carry what their command word's payload gives (R59).
Each operand has its width in its type. -/
inductive Instr where
  /-- PKT_WRITE (spec/41_packet_decoder.md R76): a completed packet of class WRITE. -/
  | pktWrite (address : Addr) (data : Byte)
  /-- PKT_READ (R77): a completed packet of class READ. -/
  | pktRead (address : Addr) (data : Byte)
  /-- PKT_UNKNOWN (R78): a completed packet of class UNKNOWN. -/
  | pktUnknown (address : Addr) (data : Byte)
  /-- NOP (spec/44_pipeline.md R103). -/
  | nop
  /-- PUSH b (R104). -/
  | push (b : Byte)
  /-- POLL now (R105). -/
  | poll (now : Time)
  /-- RESET now (R106). -/
  | reset (now : Time)
  deriving DecidableEq, Repr

/-- The two formats of the opcode table (spec/30_encoding.md R50): PKT is 64 bits, CMD is 66 bits. -/
inductive Wire where
  | pkt (P : Packet)
  | cmd (C : Command)
  deriving DecidableEq, Repr

/-- A line of the spec's assembler text (spec/30_encoding.md R65), its operands not yet checked against their
ranges: that check is `AsmLine.wellFormed`. -/
inductive AsmLine where
  /-- `NOP` -/
  | nop
  /-- `PUSH 0xHH` -/
  | push (b : Nat)
  /-- `POLL t` -/
  | poll (t : Nat)
  /-- `RESET t` -/
  | reset (t : Nat)
  /-- `FEED [b0, b1, ..., bn-1] @ t` -/
  | feed (bytes : List Nat) (t : Nat)
  /-- `PACKET ra, rb` -/
  | packet (ra rb : Nat)
  deriving DecidableEq, Repr

end Sys2Proof
end

