-- ==== Sys2Proof/Machine/Flags.lean ====
section
/-!
DEFINITION. Machine/Flags.lean: the strobe rule that classifies a packet (spec/41_packet_decoder.md R75), the output
code of an operation (spec/30_encoding.md R62), and the run flag's state machine (spec/42_stream_aligner.md R84).
-/

namespace Sys2Proof.Machine

/-- CLASSIFY (R75): the strobes are active low, and WE is tested before OE. -/
def opOf (c : Config) (b : Word) : Op :=
  if b.getLsbD c.weBit = false then .write
  else if b.getLsbD c.oeBit = false then .read
  else .unknown

/-- A packet is valid when its operation is Read or Write (spec/00_scope.md, glossary). -/
def opValid : Op → Bool
  | .read => true
  | .write => true
  | .unknown => false

/-- `ev_op` (R62): `00` READ, `01` WRITE, `10` UNKNOWN; `11` is never driven. -/
def opCode : Op → BitVec 2
  | .read => 0
  | .write => 1
  | .unknown => 2

/-- RUN-FSM (R84): the run flag (`false` Idle, `true` InRun) after a completed packet. The transition table's two rows for each
operation agree, so the state before the step is no argument. -/
def runFsm : Op → Bool
  | .read => true
  | .write => true
  | .unknown => false

end Sys2Proof.Machine
end

