-- ==== Sys2Proof/Machine/Operands.lean ====
section
/-!
DEFINITION. Machine/Operands.lean: byte order, and the bit-permutation functions that gather a packet's two operands
(spec/20_memory.md R37, spec/40_bit_permutation.md R67 to R71, spec/00_scope.md R10 and R11). All are pure (R73).
-/

namespace Sys2Proof.Machine

/-- `le32(b0, b1, b2, b3)` (R10): the first byte is the least significant. -/
def le32 (b0 b1 b2 b3 : Byte) : Word :=
  b0.setWidth 32 ||| b1.setWidth 32 <<< 8 ||| b2.setWidth 32 <<< 16 ||| b3.setWidth 32 <<< 24

/-- The 64-bit packet word of the bytes of one packet, oldest first: their little-endian reading (R37). -/
def packetWord : List Byte → Packet
  | [] => 0
  | b :: bs => b.setWidth 64 ||| packetWord bs <<< 8

/-- The 8 bytes of a packet word in arrival order, least significant first (R37, R66). -/
def packetBytes (P : Packet) : List Byte :=
  [P.extractLsb' 0 8, P.extractLsb' 8 8, P.extractLsb' 16 8, P.extractLsb' 24 8,
   P.extractLsb' 32 8, P.extractLsb' 40 8, P.extractLsb' 48 8, P.extractLsb' 56 8]

/-- `reg_a = P[31:0]` (R37). -/
def regA (P : Packet) : Word := P.extractLsb' 0 32

/-- `reg_b = P[63:32]` (R37). -/
def regB (P : Packet) : Word := P.extractLsb' 32 32

/-- `bit(v, p)` as a 32-bit value: 0 or 1 (R8). -/
def bitWord (v : Word) (p : Nat) : Word := if v.getLsbD p then 1#32 else 0#32

/-- EXTRACT (R67): entry `i` of the table fills bit `i` of the result. -/
def extract (value : Word) : List Nat → Word
  | [] => 0
  | p :: ps => bitWord value p ||| extract value ps <<< 1

/-- EXTRACT-EXTRA (R69): one more bit, from another register, merged by OR after the extraction. -/
def extractExtra (value : Word) (positions : List Nat) (other : Word) (src dst : Nat) : Word :=
  extract value positions ||| bitWord other src <<< dst

/-- `deposit` (R11), the constructive inverse of EXTRACT: bit `positions[i]` of the result is set exactly when bit `i`
of `logical` is. The block does not contain it; the encoder uses it. -/
def deposit (logical : Word) : List Nat → Word
  | [] => 0
  | p :: ps => bitWord logical 0 <<< p ||| deposit (logical >>> 1) ps

/-- ADDR (R70): the 13-bit address of a packet. -/
def addrOf (c : Config) (a : Word) : Addr := (extract a c.addrPos).setWidth 13

/-- DATA (R71): the 8-bit data of a packet; data bit 0 also takes bit `D1_SRC` of `reg_a` by OR. -/
def dataOf (c : Config) (a b : Word) : Byte := (extractExtra b c.dataPos a c.d1Src 0).setWidth 8

end Sys2Proof.Machine
end

