-- ==== Sys2Proof/Machine/ConfigCheck.lean ====
section
/-!
DEFINITION. Machine/ConfigCheck.lean: CONFIG-CHECK (spec/40_bit_permutation.md R68), the check made once at
construction.
-/

namespace Sys2Proof.Machine

/-- Every entry of a bit-position table names one of the 32 bits of a register. -/
def positionsInRange (positions : List Nat) : Bool :=
  positions.all fun p => decide (p < 32)

/-- CONFIG-CHECK (R68): its seven conditions, in order. -/
def configCheck (c : Config) : Bool :=
  decide (c.addrPos.length = 13)
    && decide (c.dataPos.length = 8)
    && (positionsInRange c.addrPos && positionsInRange c.dataPos)
    && positionsInRange [c.d1Src, c.weBit, c.oeBit]
    && decide (c.weBit ≠ c.oeBit)
    && decide (1 ≤ c.windowTicks.toNat)
    && decide (1 ≤ c.ticksPerSecond)

end Sys2Proof.Machine
end

