-- ==== Sys2Proof/WellFormed.lean ====
section
/-!
DEFINITION. WellFormed.lean: the checks on data whose type admits more than the spec does: a configuration
(spec/40_bit_permutation.md R68) and a line of assembler text (spec/30_encoding.md R65). An `Instr` needs none: each of its
operands has its width in its type, and every packet word and every command word is defined (R56, R60).
-/

namespace Sys2Proof

/-- The configuration is legal: it passes CONFIG-CHECK (R68). -/
abbrev Config.WellFormed (c : Config) : Prop := Machine.configCheck c = true

/-- The operands of an assembler line are in range: a byte below 2^8, a register word below 2^32, a tick count below
2^64 (R65). -/
def AsmLine.wellFormed : AsmLine → Bool
  | .nop => true
  | .push b => decide (b < 2 ^ 8)
  | .poll t => decide (t < 2 ^ 64)
  | .reset t => decide (t < 2 ^ 64)
  | .feed bytes t => (bytes.all fun b => decide (b < 2 ^ 8)) && decide (t < 2 ^ 64)
  | .packet ra rb => decide (ra < 2 ^ 32) && decide (rb < 2 ^ 32)

end Sys2Proof
end

