-- ==== Sys2Proof/Decode.lean ====
section
/-!
DEFINITION. Decode.lean: the packet decoder (spec/41_packet_decoder.md R74), the command decoder
(spec/30_encoding.md R58 to R60), both total; the decoding of raw bits, which refuses by name what is no word of either format;
the encoder; the opcode table's masks; and the expansions of the assembler's lines (R65).
-/

namespace Sys2Proof

/-- A decoded packet, `{op, address, data}` (R74). -/
structure DecodedPacket where
  op : Op
  address : Addr
  data : Byte
  deriving DecidableEq, Repr

/-- DECODE (R74). Total: no packet word is illegal (R56). -/
def decodePacket (c : Config) (P : Packet) : DecodedPacket where
  op := Machine.opOf c (Machine.regB P)
  address := Machine.addrOf c (Machine.regA P)
  data := Machine.dataOf c (Machine.regA P) (Machine.regB P)

/-- The packet class of a decoded packet, as an instruction (the opcode rows of R54). -/
def DecodedPacket.toInstr (d : DecodedPacket) : Instr :=
  match d.op with
  | .write => .pktWrite d.address d.data
  | .read => .pktRead d.address d.data
  | .unknown => .pktUnknown d.address d.data

/-- The transaction of a command word (R59). Total: no command word is illegal, and the bits a transaction does not read
are ignored (R60). -/
def decodeCommand (C : Command) : Instr :=
  match (C.extractLsb' 64 2).toNat with
  | 0 => .nop
  | 1 => .push (C.extractLsb' 0 8)
  | 2 => .poll (C.extractLsb' 0 64)
  | _ => .reset (C.extractLsb' 0 64)

/-- The instruction of a word of either format. -/
def decode (c : Config) : Wire → Instr
  | .pkt P => (decodePacket c P).toInstr
  | .cmd C => decodeCommand C

/-- Why raw bits are no word of the opcode table. -/
inductive DecodeError where
  /-- A packet is exactly 8 bytes (spec/93_implementation_defined.md U5). -/
  | packetLength (n : Nat)
  /-- The bits do not fit the format's width: 64 for PKT, 66 for CMD (R64). -/
  | wordTooWide (nbits w : Nat)
  /-- No format has this many bits (R50). -/
  | noSuchFormat (nbits : Nat)
  deriving DecidableEq, Repr

/-- Decode the bytes of one packet; any other length than 8 is refused (U5). -/
def decodePacketBytes (c : Config) (bs : List Byte) : Except DecodeError Instr :=
  if bs.length = 8 then .ok (decode c (.pkt (Machine.packetWord bs))) else .error (.packetLength bs.length)

/-- Decode `nbits` raw bits `w`: up to 64 bits is a packet word, 65 to 72 bits (66 in whole bytes) is a command word. -/
def decodeBits (c : Config) (nbits w : Nat) : Except DecodeError Instr :=
  if nbits ≤ 64 then
    if w < 2 ^ 64 then decodePacketBytes c (Machine.packetBytes (BitVec.ofNat 64 w))
    else .error (.wordTooWide nbits w)
  else if nbits ≤ 72 then
    if w < 2 ^ 66 then .ok (decode c (.cmd (BitVec.ofNat 66 w))) else .error (.wordTooWide nbits w)
  else .error (.noSuchFormat nbits)

/-- The instruction this hardware's decoder reads from `w`; `none` where it refuses. -/
def decodeTableWord (nbits w : Nat) : Option Instr :=
  (decodeBits Config.hw nbits w).toOption

/-! ### The encoder -/

/-- The strobe bits of a class (R54), active low. WRITE does not test OE; the encoder writes OE low, as the opcode row's
match value has it. -/
def strobes (c : Config) : Op → Word
  | .write => 0
  | .read => 1#32 <<< c.weBit
  | .unknown => 1#32 <<< c.weBit ||| 1#32 <<< c.oeBit

/-- `PKT(ra, rb)` (R66): the packet word with `reg_a = ra` and `reg_b = rb`. -/
def pktWord (ra rb : Word) : Packet := rb ++ ra

/-- A packet word of the given class and operands, with every ignored bit 0 (R52, R53). Data bit 0 is placed in `reg_b`;
the D1 bit of `reg_a` stays 0. -/
def encodePacket (c : Config) (op : Op) (address : Addr) (data : Byte) : Packet :=
  pktWord (Machine.deposit (address.setWidth 32) c.addrPos)
    (strobes c op ||| Machine.deposit (data.setWidth 32) c.dataPos)

/-- `NOP` (R65). -/
def nopWord : Command := 0#2 ++ 0#64

/-- `PUSH b` (R65): `C[63:8]` is written as 0. -/
def pushWord (b : Byte) : Command := 1#2 ++ b.setWidth 64

/-- `POLL t` (R65). -/
def pollWord (t : Time) : Command := 2#2 ++ t

/-- `RESET t` (R65). -/
def resetWord (t : Time) : Command := 3#2 ++ t

/-- The word of an instruction. -/
def encode (c : Config) : Instr → Wire
  | .pktWrite a d => .pkt (encodePacket c .write a d)
  | .pktRead a d => .pkt (encodePacket c .read a d)
  | .pktUnknown a d => .pkt (encodePacket c .unknown a d)
  | .nop => .cmd nopWord
  | .push b => .cmd (pushWord b)
  | .poll t => .cmd (pollWord t)
  | .reset t => .cmd (resetWord t)

/-! ### The opcode table -/

/-- The mask and match of a row of spec/opcode_table.json, on a word of the row's format. -/
inductive OpcodeRow where
  | pkt (mask value : Packet)
  | cmd (mask value : Command)
  deriving DecidableEq, Repr

/-- The row of each instruction, transcribed from spec/opcode_table.json (R54, R59). -/
def opcodeRow : Instr → OpcodeRow
  | .pktWrite _ _ => .pkt 0x0000000100000000 0x0000000000000000
  | .pktRead _ _ => .pkt 0x0000000300000000 0x0000000100000000
  | .pktUnknown _ _ => .pkt 0x0000000300000000 0x0000000300000000
  | .nop => .cmd 0x30000000000000000 0x00000000000000000
  | .push _ => .cmd 0x30000000000000000 0x10000000000000000
  | .poll _ => .cmd 0x30000000000000000 0x20000000000000000
  | .reset _ => .cmd 0x30000000000000000 0x30000000000000000

/-- A word belongs to a row: it has the row's format, and masked it is the row's match value. -/
def OpcodeRow.selects : OpcodeRow → Wire → Bool
  | .pkt mask value, .pkt P => decide (P &&& mask = value)
  | .cmd mask value, .cmd C => decide (C &&& mask = value)
  | .pkt _ _, .cmd _ => false
  | .cmd _ _, .pkt _ => false

/-! ### The assembler's expansions -/

/-- `FEED bytes @ t` (R65, R107): a PUSH for each byte in order, then POLL t. -/
def feedCommands (bytes : List Byte) (t : Time) : List Command :=
  bytes.map pushWord ++ [pollWord t]

/-- `PACKET ra, rb` (R65): the PUSHes of the little-endian bytes of `ra`, then of `rb`. -/
def packetCommands (ra rb : Word) : List Command :=
  (Machine.packetBytes (pktWord ra rb)).map pushWord

/-- The command words of an assembler line; `none` where an operand is out of range (R65). -/
def assembleLine (line : AsmLine) : Option (List Command) :=
  if line.wellFormed then
    some (match line with
      | .nop => [nopWord]
      | .push b => [pushWord (BitVec.ofNat 8 b)]
      | .poll t => [pollWord (BitVec.ofNat 64 t)]
      | .reset t => [resetWord (BitVec.ofNat 64 t)]
      | .feed bytes t => feedCommands (bytes.map (BitVec.ofNat 8)) (BitVec.ofNat 64 t)
      | .packet ra rb => packetCommands (BitVec.ofNat 32 ra) (BitVec.ofNat 32 rb))
  else none

end Sys2Proof
end

