-- ==== Sys2Proof/Machine/State.lean ====
section
/-!
DEFINITION. Machine/State.lean: the state of the machine (spec/10_state.md R16, R22, R27), the records its outputs carry
(spec/30_encoding.md R61, R63), the reasons a step can stop, and the launch state (spec/70_reset_and_hazards.md R128).
-/

namespace Sys2Proof.Machine

/-- The model's fault reasons, a closed list of one (spec/60_exceptions.md R115). -/
inductive Fault where
  /-- Raised by POLL when its `now` is below the open window's start (spec/43_rate_tracker.md R94); from then on every
  step answers this fault, because a faulted state takes no step (spec/44_pipeline.md R102).
  Safe: what the hardware does then is not specified, and the model gives it no further run. -/
  | timeRegression (now windowStart : Time)
  deriving DecidableEq, Repr

/-- Why a step has no meaning. -/
inductive Refusal where
  /-- Raised by no arm of `exec`: every row of the opcode table has its meaning.
  Safe: nothing is said of a refused instruction. -/
  | notModelled (mnemonic : String)
  /-- InvalidConfig (spec/60_exceptions.md R116): raised by the construction of a block, and by `step` in a state
  whose configuration fails CONFIG-CHECK: no block exists, so no step is defined.
  Safe: the spec itself refuses such a configuration. -/
  | invalidConfig
  deriving DecidableEq, Repr

/-- The event record (EVT) driven by a PUSH that completes a packet (spec/30_encoding.md R61). `seq` is `none` where
`ev_seq_valid` is 0: the spec gives `ev_seq` no value there. Machine/Outputs.lean has the record's fields under the spec's
names. -/
structure Event where
  op : Op
  seq : Option Count
  addr : Addr
  data : Byte
  deriving DecidableEq, Repr

/-- The statistics record (STS) driven by a POLL that closes a window (R63): `st_window_start` to `st_write_count`. -/
structure Stats where
  windowStart : Time
  windowEnd : Time
  totalBytes : Count
  totalPackets : Count
  validPackets : Count
  readCount : Count
  writeCount : Count
  deriving DecidableEq, Repr

/-- The state. First the configuration (R22), which no transaction writes; then the registers of R16; then the model's fault
mark (R27); then the outputs that the latest step drove; last the environment's transactions to come. -/
@[ext]
structure State where
  /-- The configuration fields of R22 and the OPEN parameters. -/
  cfg : Config
  /-- `carry` and `carry_count` (R17): the bytes of the incomplete packet, oldest first. Entries at and above `carry_count`
  hold no value, so only the meaningful ones are listed, and `carry_count` is their number
  (`Machine.statusCarryCount` is its 3-bit view). -/
  carry : List Byte
  /-- `run_active` (R18). -/
  runActive : Bool
  /-- `seq_next` (R19). -/
  seqNext : Count
  /-- `window_start` (R20). -/
  windowStart : Time
  /-- `total_bytes` (R16). -/
  totalBytes : Count
  /-- `total_packets` (R16). -/
  totalPackets : Count
  /-- `valid_packets` (R16). -/
  validPackets : Count
  /-- `read_count` (R16). -/
  readCount : Count
  /-- `write_count` (R16). -/
  writeCount : Count
  /-- The fault mark (R27), sticky. -/
  fault : Option Fault
  /-- The event record that the latest step drove, if it drove one (spec/44_pipeline.md R108). -/
  event : Option Event
  /-- The statistics record that the latest step drove, if it drove one (R108). -/
  stats : Option Stats
  /-- The MODEL's own field: the command words the environment has yet to issue, next first
  (log entry 1). The block has no such queue. -/
  pending : List Command
  deriving DecidableEq, Repr

/-- The launch state (spec/70_reset_and_hazards.md R128): what `RESET now0` leaves (spec/10_state.md R26), no fault, no output yet
and nothing issued yet. -/
def State.reset : State where
  cfg := Config.hw
  carry := []
  runActive := false
  seqNext := Config.openSeqBase
  windowStart := Config.launchTime
  totalBytes := 0
  totalPackets := 0
  validPackets := 0
  readCount := 0
  writeCount := 0
  fault := none
  event := none
  stats := none
  pending := []

end Sys2Proof.Machine
end

