-- ==== Sys2Proof/Machine/Ops.lean ====
section
/-!
DEFINITION. Machine/Ops.lean: the named operations over the state, each written once from its own rule: the aligner's step,
the numbering, the counters, the window, raising the model's fault, a reset, the construction of a block, and taking the next
transaction.
-/

namespace Sys2Proof.Machine

/-- A transaction begins with no output driven: a step that emits nothing has no event and no statistics output
(spec/00_scope.md R10, spec/20_memory.md R42). -/
def quiet (s : State) : State := { s with event := none, stats := none }

/-- COUNT-BYTE (spec/43_rate_tracker.md R89): every PUSH counts, whether or not it completes a packet. -/
def countByte (s : State) : State := { s with totalBytes := s.totalBytes + 1 }

/-- The carry buffer is replaced. -/
def setCarry (bytes : List Byte) (s : State) : State := { s with carry := bytes }

/-- ACCEPT-BYTE (spec/42_stream_aligner.md R81): what the carry buffer becomes, and the completed packet, if any. The 8th byte
is not stored: it completes the packet. -/
def acceptByte (b : Byte) (carry : List Byte) : List Byte × Option (List Byte) :=
  if carry.length < 7 then (carry ++ [b], none) else ([], some (carry ++ [b]))

/-- SEQ-ASSIGN (R85): the number a packet of this operation gets, if any. -/
def seqFor (op : Op) (s : State) : Option Count :=
  if opValid op then some s.seqNext else none

/-- SEQ-ASSIGN (R85): a valid packet consumes its number, an Unknown packet none. -/
def advanceSeq (op : Op) (s : State) : State :=
  if opValid op then { s with seqNext := s.seqNext + 1 } else s

/-- RUN-FSM (R84) applied to the run flag. -/
def stepRun (op : Op) (s : State) : State := { s with runActive := runFsm op }

/-- RECORD-PACKET (spec/43_rate_tracker.md R90). -/
def recordPacket (op : Op) (s : State) : State :=
  match op with
  | .read =>
    { s with totalPackets := s.totalPackets + 1, validPackets := s.validPackets + 1, readCount := s.readCount + 1 }
  | .write =>
    { s with totalPackets := s.totalPackets + 1, validPackets := s.validPackets + 1, writeCount := s.writeCount + 1 }
  | .unknown => { s with totalPackets := s.totalPackets + 1 }

/-- `emit_event` (spec/00_scope.md R10). -/
def emitEvent (e : Event) (s : State) : State := { s with event := some e }

/-- `emit_stats` (R10). -/
def emitStats (r : Stats) (s : State) : State := { s with stats := some r }

/-- What PUSH does with a packet once it is decoded (spec/44_pipeline.md R104): number it, step the run flag, count it, and drive
its event with the number read before it was consumed. -/
def completePacket (d : DecodedPacket) (s : State) : State :=
  emitEvent ⟨d.op, seqFor d.op s, d.address, d.data⟩ (recordPacket d.op (stepRun d.op (advanceSeq d.op s)))

/-- PUSH (R104) as a function of the state: count the byte, accept it, and complete the packet if this was its 8th byte. -/
def pushByte (b : Byte) (s : State) : State :=
  let counted := countByte (quiet s)
  match acceptByte b s.carry with
  | (carry, none) => setCarry carry counted
  | (carry, some bytes) => completePacket (decodePacket s.cfg (packetWord bytes)) (setCarry carry counted)

/-- WINDOW-DUE (spec/43_rate_tracker.md R91), for `now` at or above the window's start; the subtraction is on natural
numbers. -/
def windowDue (now : Time) (s : State) : Bool :=
  decide (s.cfg.windowTicks.toNat ≤ now.toNat - s.windowStart.toNat)

/-- A fresh window beginning at `now`: every window counter 0 (R93; spec/10_state.md R26). -/
def openWindow (now : Time) (s : State) : State :=
  { s with windowStart := now, totalBytes := 0, totalPackets := 0, validPackets := 0, readCount := 0, writeCount := 0 }

/-- The statistics record of the open window, closed at `now` (R93). -/
def windowRecord (now : Time) (s : State) : Stats where
  windowStart := s.windowStart
  windowEnd := now
  totalBytes := s.totalBytes
  totalPackets := s.totalPackets
  validPackets := s.validPackets
  readCount := s.readCount
  writeCount := s.writeCount

/-- POLL-CLOSE (R93): drive the record and open the next window, atomically. -/
def closeWindow (now : Time) (s : State) : State :=
  emitStats (windowRecord now s) (openWindow now s)

/-- `raise Fault(reason)` (spec/60_exceptions.md R115, R121): the model's only exception. It sets the mark and nothing else: no state is
saved and control goes nowhere. There is no return from it (R122). -/
def raiseFault (r : Fault) (s : State) : State := { s with fault := some r }

/-- POLL (spec/44_pipeline.md R105) as a function of the state. -/
def pollAt (now : Time) (s : State) : State :=
  if now.toNat < s.windowStart.toNat then raiseFault (.timeRegression now s.windowStart) (quiet s)
  else if windowDue now s then closeWindow now (quiet s)
  else quiet s

/-- RESET (R106) as a function of the state: the reset values of spec/10_state.md R26. The configuration and the fault mark
stay. -/
def resetAt (now : Time) (s : State) : State :=
  openWindow now { quiet s with carry := [], runActive := false, seqNext := s.cfg.seqBase }

/-- Construction (spec/60_exceptions.md R116, spec/70_reset_and_hazards.md R128 and R131): an illegal configuration yields no block; a legal one
yields the launch state at `now0`. -/
def construct (c : Config) (now0 : Time) : Except Refusal State :=
  if configCheck c then
    .ok { cfg := c, carry := [], runActive := false, seqNext := c.seqBase, windowStart := now0, totalBytes := 0,
          totalPackets := 0, validPackets := 0, readCount := 0, writeCount := 0, fault := none, event := none,
          stats := none, pending := [] }
  else .error .invalidConfig

/-- The next transaction the environment issues, decoded, and the state in which it applies (spec/44_pipeline.md R102); `none` where the
environment issues none (spec/70_reset_and_hazards.md R139). -/
def takeTransaction (s : State) : Option (Instr × State) :=
  match s.pending with
  | [] => none
  | C :: rest => some (decodeCommand C, { s with pending := rest })

/-- The guard of every step: an illegal configuration has no step (spec/60_exceptions.md R116, R120), a faulted state takes no step
(spec/44_pipeline.md R102), and any other state does what is asked. -/
def guardStep (s : State) (act : Host.Outcome State Fault Refusal) : Host.Outcome State Fault Refusal :=
  if configCheck s.cfg then
    match s.fault with
    | some r => .fault r
    | none => act
  else .refused .invalidConfig

/-- The environment's next transaction is `C`. -/
def issueNext (C : Command) (s : State) : State := { s with pending := C :: s.pending }

/-- The aligner holds the first 7 bytes of the packet `P` and the environment's next transaction pushes its 8th, so that the
next step completes exactly `P`. -/
def placePacket (P : Packet) (s : State) : State :=
  issueNext (pushWord (P.extractLsb' 56 8)) (setCarry ((packetBytes P).take 7) s)

end Sys2Proof.Machine
end

