-- ==== Sys2Proof/Machine/Packets.lean ====
section
/-!
DEFINITION. Machine/Packets.lean: the meanings of the three packet classes (spec/41_packet_decoder.md R76 to R78). A packet runs inside the
PUSH of its 8th byte: its meaning is what that PUSH does once the packet is decoded (spec/44_pipeline.md R104).
-/

namespace Sys2Proof.Machine

/-- PKT_WRITE (R76): a valid packet; it takes a number, sets the run flag, and counts as a write. -/
def execPktWrite (address : Addr) (data : Byte) (s : State) : Host.Outcome State Fault Refusal :=
  .next (completePacket ⟨.write, address, data⟩ (quiet s))

/-- PKT_READ (R77): a valid packet; it takes a number, sets the run flag, and counts as a read. -/
def execPktRead (address : Addr) (data : Byte) (s : State) : Host.Outcome State Fault Refusal :=
  .next (completePacket ⟨.read, address, data⟩ (quiet s))

/-- PKT_UNKNOWN (R78): not valid; it takes no number, clears the run flag, and counts as a packet only. Its event still carries
the decoded address and data. -/
def execPktUnknown (address : Addr) (data : Byte) (s : State) : Host.Outcome State Fault Refusal :=
  .next (completePacket ⟨.unknown, address, data⟩ (quiet s))

end Sys2Proof.Machine
end

