-- ==== Sys2Proof/Machine/Transactions.lean ====
section
/-!
DEFINITION. Machine/Transactions.lean: the meanings of the four transactions (spec/44_pipeline.md R103 to R106).
-/

namespace Sys2Proof.Machine

/-- NOP (R103): no state change and no output. -/
def execNop (s : State) : Host.Outcome State Fault Refusal :=
  .next (quiet s)

/-- PUSH b (R104). It never faults. -/
def execPush (b : Byte) (s : State) : Host.Outcome State Fault Refusal :=
  .next (pushByte b s)

/-- POLL now (R105). A time regression raises the model's fault: the next state carries the mark. -/
def execPoll (now : Time) (s : State) : Host.Outcome State Fault Refusal :=
  .next (pollAt now s)

/-- RESET now (R106). -/
def execReset (now : Time) (s : State) : Host.Outcome State Fault Refusal :=
  .next (resetAt now s)

end Sys2Proof.Machine
end

