-- ==== Sys2Proof/Machine/Dispatch.lean ====
section
/-!
DEFINITION. Machine/Dispatch.lean: one arm for each constructor of Instr.
-/

namespace Sys2Proof.Machine

def exec (i : Instr) (s : State) : Host.Outcome State Fault Refusal :=
  match i with
  | .pktWrite address data => Sys2Proof.Machine.execPktWrite address data s
  | .pktRead address data => Sys2Proof.Machine.execPktRead address data s
  | .pktUnknown address data => Sys2Proof.Machine.execPktUnknown address data s
  | .nop => Sys2Proof.Machine.execNop s
  | .push b => Sys2Proof.Machine.execPush b s
  | .poll now => Sys2Proof.Machine.execPoll now s
  | .reset now => Sys2Proof.Machine.execReset now s

end Sys2Proof.Machine
end

