-- ==== Sys2Proof/Machine/Step.lean ====
section
/-!
DEFINITION. Machine/Step.lean: STEP (spec/44_pipeline.md R102), and how one instruction is placed so that the next step runs it.
-/

namespace Sys2Proof.Machine

/-- STEP (R102): guarded by `guardStep`, the next transaction is applied; where the environment issues none the block is
idle and its state survives (spec/70_reset_and_hazards.md R139). -/
def step (s : State) : Host.Outcome State Fault Refusal :=
  guardStep s
    (match takeTransaction s with
    | none => .next (quiet s)
    | some (i, s') => exec i s')

/-- `s` with the instruction of the bits `w` placed so that the very next step runs it (log entry 2): a command word becomes the
environment's next transaction; a packet word becomes the packet that the next PUSH completes. -/
def State.withFetchWord (s : State) (nbits w : Nat) : State :=
  if nbits ≤ 64 then placePacket (BitVec.ofNat 64 w) s else issueNext (BitVec.ofNat 66 w) s

end Sys2Proof.Machine
end

