-- ==== Sys2Proof/Machine/Asm.lean ====
section
/-!
DEFINITION. Machine/Asm.lean: the assembler text of spec/30_encoding.md R65, one line at a time, as a list of characters: `NOP`, `PUSH 0xHH`,
`POLL t`, `RESET t`, `FEED [b0, ...] @ t`, `PACKET ra, rb`, and comments that start with `;`. It is notation only (D25): no step reads
it.
-/

namespace Sys2Proof.Machine

/-- The value of a decimal digit. -/
def decDigit (ch : Char) : Option Nat :=
  if '0'.toNat ≤ ch.toNat ∧ ch.toNat ≤ '9'.toNat then some (ch.toNat - '0'.toNat) else none

/-- The value of a hexadecimal digit, of either case. -/
def hexDigit (ch : Char) : Option Nat :=
  match decDigit ch with
  | some d => some d
  | none =>
    if 'a'.toNat ≤ ch.toNat ∧ ch.toNat ≤ 'f'.toNat then some (ch.toNat - 'a'.toNat + 10)
    else if 'A'.toNat ≤ ch.toNat ∧ ch.toNat ≤ 'F'.toNat then some (ch.toNat - 'A'.toNat + 10)
    else none

/-- The digits of a number in the given base, after what was read before them. -/
def digits (digit : Char → Option Nat) (base : Nat) : List Char → Nat → Option Nat
  | [], acc => some acc
  | ch :: rest, acc =>
    match digit ch with
    | some d => digits digit base rest (acc * base + d)
    | none => none

/-- A hexadecimal number with its `0x`, or a decimal number. -/
def number : List Char → Option Nat
  | '0' :: 'x' :: ch :: rest => digits hexDigit 16 (ch :: rest) 0
  | ch :: rest => digits decDigit 10 (ch :: rest) 0
  | [] => none

/-- `0xHH`: a byte of two hexadecimal digits. -/
def pushOperand : List Char → Option Nat
  | ['0', 'x', h, l] => digits hexDigit 16 [h, l] 0
  | _ => none

/-- A byte of a FEED list: `0xHH`, or `HH` alone, as the programs of spec/95_test_vectors.md write it (log entry 9). -/
def feedByte : List Char → Option Nat
  | [h, l] => digits hexDigit 16 [h, l] 0
  | token => pushOperand token

/-- The marks that are tokens by themselves. -/
def isMark (ch : Char) : Bool :=
  ch == '[' || ch == ']' || ch == ',' || ch == '@'

/-- The tokens of a line, its comment left out. `word` is the token being read, its characters in reverse. -/
def tokens : List Char → List Char → List (List Char)
  | [], word => if word.isEmpty then [] else [word.reverse]
  | ch :: rest, word =>
    let done := if word.isEmpty then [] else [word.reverse]
    if ch == ';' then done
    else if ch == ' ' || ch == '\t' then done ++ tokens rest []
    else if isMark ch then done ++ [ch] :: tokens rest []
    else tokens rest (ch :: word)

/-- The rest of a FEED list after its first byte, up to its closing bracket, and the tokens after it. -/
def feedRest : List (List Char) → Option (List Nat × List (List Char))
  | [']'] :: after => some ([], after)
  | [','] :: token :: more =>
    match feedByte token, feedRest more with
    | some b, some (bytes, after) => some (b :: bytes, after)
    | _, _ => none
  | _ => none

/-- A FEED list after its opening bracket. -/
def feedList : List (List Char) → Option (List Nat × List (List Char))
  | [']'] :: after => some ([], after)
  | token :: more =>
    match feedByte token, feedRest more with
    | some b, some (bytes, after) => some (b :: bytes, after)
    | _, _ => none
  | [] => none

/-- The statement of a line: `some []` for a line with none, `none` for a line that is no statement of the spec's text. -/
def parseTokens : List (List Char) → Option (List AsmLine)
  | [] => some []
  | [['N', 'O', 'P']] => some [.nop]
  | [['P', 'U', 'S', 'H'], b] => (pushOperand b).map fun v => [.push v]
  | [['P', 'O', 'L', 'L'], t] => (number t).map fun v => [.poll v]
  | [['R', 'E', 'S', 'E', 'T'], t] => (number t).map fun v => [.reset v]
  | [['P', 'A', 'C', 'K', 'E', 'T'], ra, [','], rb] =>
    match number ra, number rb with
    | some a, some b => some [.packet a b]
    | _, _ => none
  | ['F', 'E', 'E', 'D'] :: ['['] :: more =>
    match feedList more with
    | some (bytes, [['@'], t]) => (number t).map fun v => [.feed bytes v]
    | _ => none
  | _ => none

/-- The command words of one line of text; `none` where the line is no statement or an operand is out of range. -/
def assembleText (line : List Char) : Option (List Command) :=
  match parseTokens (tokens line []) with
  | some [] => some []
  | some [statement] => assembleLine statement
  | _ => none

end Sys2Proof.Machine
end

