-- ==== Sys2Proof/Machine/Outputs.lean ====
section
/-!
DEFINITION. Machine/Outputs.lean: the outputs under the spec's names: the fields of the event record (spec/30_encoding.md R61, R62), the
status outputs (spec/10_state.md R23), the step's visible output (spec/44_pipeline.md R108), and the derived metrics that a consumer
computes from a statistics record (spec/43_rate_tracker.md R96).
-/

namespace Sys2Proof.Machine

/-- `ev_op`, 2 bits (R62). -/
def evOp (e : Event) : BitVec 2 := opCode e.op

/-- `ev_seq_valid`, 1 bit (R61): 1 if the operation is READ or WRITE. -/
def evSeqValid (e : Event) : BitVec 1 := BitVec.ofBool e.seq.isSome

/-- `ev_seq`, 64 bits; no value where `ev_seq_valid` is 0 (R61). -/
def evSeq (e : Event) : Option Count := e.seq

/-- `ev_addr`, 13 bits (R61). -/
def evAddr (e : Event) : Addr := e.addr

/-- `ev_data`, 8 bits (R61). -/
def evData (e : Event) : Byte := e.data

/-- `status_carry_count`, 3 bits, always driven (R23): the value of `carry_count`. -/
def statusCarryCount (s : State) : BitVec 3 := BitVec.ofNat 3 s.carry.length

/-- `status_run_active`, 1 bit, always driven (R23). -/
def statusRunActive (s : State) : BitVec 1 := BitVec.ofBool s.runActive

/-- What one step shows beside the status outputs: an event record, a statistics record, or neither (R108). -/
structure Output where
  event : Option Event
  stats : Option Stats
  deriving DecidableEq, Repr

/-- The visible output of the step that led to `s`. -/
def outputOf (s : State) : Output := ⟨s.event, s.stats⟩

/-- `MIB` (spec/00_scope.md R7). -/
def mib : Nat := 1048576

/-- `elapsed_ticks` (spec/43_rate_tracker.md R95), on natural numbers. -/
def elapsedTicks (r : Stats) : Nat := r.windowEnd.toNat - r.windowStart.toNat

/-- `elapsed_seconds` (R96), exact. -/
def elapsedSeconds (ticksPerSecond : Nat) (r : Stats) : Rat := (elapsedTicks r : Rat) / (ticksPerSecond : Rat)

/-- `throughput_MBps` (R96), exact. -/
def throughputMBps (ticksPerSecond : Nat) (r : Stats) : Rat :=
  (r.totalBytes.toNat : Rat) / elapsedSeconds ticksPerSecond r / (mib : Rat)

/-- `mean_inter_event_us` (R96), exact; 0 for a window with no valid packet. -/
def meanInterEventUs (ticksPerSecond : Nat) (r : Stats) : Rat :=
  if 0 < r.validPackets.toNat then
    elapsedSeconds ticksPerSecond r / (r.validPackets.toNat : Rat) * 1000000
  else 0

end Sys2Proof.Machine
end

