-- ==== Sys2Proof/Machine/Streams.lean ====
section
/-!
DEFINITION. Machine/Streams.lean: sequences of transactions with the records they drive: a chunk of bytes pushed one by one
(spec/42_stream_aligner.md R82, R83), the source's `feed` (spec/44_pipeline.md R107), any list of transactions, and how a byte stream falls into
packets by its count alone (spec/20_memory.md R39).
-/

namespace Sys2Proof.Machine

/-- The events driven by pushing each byte of a chunk in order, and the state after the chunk (R82). -/
def pushChunk : List Byte → State → List Event × State
  | [], s => ([], s)
  | b :: bs, s =>
    let s' := pushByte b s
    let (events, t) := pushChunk bs s'
    (s'.event.toList ++ events, t)

/-- Several chunks pushed one after another (spec/20_memory.md R41). -/
def pushChunks : List (List Byte) → State → List Event × State
  | [], s => ([], s)
  | c :: cs, s =>
    let (events, s') := pushChunk c s
    let (more, t) := pushChunks cs s'
    (events ++ more, t)

/-- The result of the source's `feed(chunk)` at time `now` (R107): the events of its PUSHes in order, the record of its POLL if
that closed a window, and the state after. -/
def feed (chunk : List Byte) (now : Time) (s : State) : List Event × Option Stats × State :=
  let (events, s') := pushChunk chunk s
  let t := pollAt now s'
  (events, t.stats, t)

/-- A list of transactions run in order, each under the guard of `step`, with the visible output of each (R108); `none` where one of them
takes no step. -/
def runAll : List Instr → State → Option (List Output × State)
  | [], s => some ([], s)
  | i :: is, s =>
    match guardStep s (exec i s) with
    | .next s' =>
      match runAll is s' with
      | some (outs, t) => some (outputOf s' :: outs, t)
      | none => none
    | .fault _ => none
    | .refused _ => none

/-- The machine stepped `n` times, with the visible output of each step (R108); `none` where it takes no step. -/
def stepOutputs : Nat → State → Option (List Output × State)
  | 0, s => some ([], s)
  | n + 1, s =>
    match step s with
    | .next s' =>
      match stepOutputs n s' with
      | some (outs, t) => some (outputOf s' :: outs, t)
      | none => none
    | .fault _ => none
    | .refused _ => none

/-- The whole packets of a byte stream, 8 bytes each, by its count alone (spec/20_memory.md R39). -/
def wholePackets : List Byte → List (List Byte)
  | b0 :: b1 :: b2 :: b3 :: b4 :: b5 :: b6 :: b7 :: rest => [b0, b1, b2, b3, b4, b5, b6, b7] :: wholePackets rest
  | _ => []

/-- The packets of a byte stream, decoded: a function of the configuration and the bytes alone. -/
def decodedPackets (c : Config) (bytes : List Byte) : List DecodedPacket :=
  (wholePackets bytes).map fun bs => decodePacket c (packetWord bs)

/-- The events of a list of packets, numbered from `n`: a valid packet takes the next number and an Unknown one none
(spec/42_stream_aligner.md R85, R86). -/
def numberedEvents : Count → List DecodedPacket → List Event
  | _, [] => []
  | n, d :: ds =>
    if opValid d.op then ⟨d.op, some n, d.address, d.data⟩ :: numberedEvents (n + 1) ds
    else ⟨d.op, none, d.address, d.data⟩ :: numberedEvents n ds

/-- How many packets of a list satisfy a test of their operation, as a 64-bit count. -/
def packetCount (test : Op → Bool) (ds : List DecodedPacket) : Count :=
  BitVec.ofNat 64 (ds.countP fun d => test d.op)

/-- The run flag after a list of packets: the last one's class decides it (R84), and no packet leaves it. -/
def runFlagAfter (before : Bool) (ds : List DecodedPacket) : Bool :=
  match ds.getLast? with
  | some d => opValid d.op
  | none => before

/-- What the event of a packet carries beside its number. -/
def eventPacket (e : Event) : DecodedPacket := ⟨e.op, e.addr, e.data⟩

/-- The sequence numbers that a list of outputs carries, in order (spec/42_stream_aligner.md R86). -/
def outputSeqs (outs : List Output) : List Count :=
  outs.filterMap fun o => o.event.bind Event.seq

/-- The event records of a list of outputs, in order. -/
def outputEvents (outs : List Output) : List Event :=
  outs.filterMap Output.event

/-- The statistics records of a list of outputs, in order. -/
def outputStats (outs : List Output) : List Stats :=
  outs.filterMap Output.stats

/-- The number of PUSHes in a list of transactions. -/
def pushCount : List Instr → Nat
  | [] => 0
  | .push _ :: is => pushCount is + 1
  | _ :: is => pushCount is

/-- No transaction of the list is a RESET. -/
def noReset (is : List Instr) : Bool :=
  is.all fun i => match i with
    | .reset _ => false
    | _ => true

/-- No transaction of the list is a POLL. -/
def noPoll (is : List Instr) : Bool :=
  is.all fun i => match i with
    | .poll _ => false
    | _ => true

/-- Each record of the list starts where the record before it ended, the first at `start`; the value is where the last one
ends (spec/43_rate_tracker.md R98). -/
def windowsTile (start : Time) : List Stats → Option Time
  | [] => some start
  | r :: rs => if r.windowStart = start then windowsTile r.windowEnd rs else none

end Sys2Proof.Machine
end

