-- ==== Sys2Proof/Safety.lean ====
section
/-!
DEFINITION. Safety.lean: the invariant that every state of a run meets (spec/10_state.md R17, R28; spec/30_encoding.md R61; spec/43_rate_tracker.md R95;
spec/44_pipeline.md R108; spec/60_exceptions.md R115), and what a correct step is.
-/

namespace Sys2Proof.Machine

/-- R28 (c), modulo 2^64: the bytes of the open window, with the `c0` carry bytes the window began with, are the
bytes of its packets and of the carry. -/
def bytesBalance (s : State) : Prop :=
  ∃ c0 : Nat, c0 ≤ 7 ∧
    s.totalBytes + BitVec.ofNat 64 c0 = 8 * s.totalPackets + BitVec.ofNat 64 s.carry.length

/-- The invariant of the machine. It holds at launch and every step keeps it. -/
structure Inv (s : State) : Prop where
  /-- The configuration is legal (R68, R116). -/
  legal : configCheck s.cfg = true
  /-- `carry_count` is in 0..7 (R17, R28 d). -/
  carryBound : s.carry.length ≤ 7
  /-- `valid_packets = read_count + write_count`, modulo 2^64 (R28 a). -/
  validSum : s.validPackets = s.readCount + s.writeCount
  /-- R28 (c), modulo 2^64. -/
  balance : bytesBalance s
  /-- A recorded fault is a time below the open window's start (R115). -/
  faultMark : ∀ now start, s.fault = some (.timeRegression now start) →
    start = s.windowStart ∧ now.toNat < start.toNat
  /-- No step drives both records (R108). -/
  oneOutput : s.event = none ∨ s.stats = none
  /-- An event carries a number exactly when its operation is valid (R61). -/
  eventSeq : ∀ e, s.event = some e → e.seq.isSome = opValid e.op
  /-- A driven record closed a due window, and the next window began at its end (R93, R95). -/
  statsElapsed : ∀ r, s.stats = some r →
    r.windowEnd = s.windowStart ∧ r.windowStart.toNat + s.cfg.windowTicks.toNat ≤ r.windowEnd.toNat

/-- A correct step: it has a next state, with no fault recorded (R115: a faulted state is not the state of a correct run). -/
def SafeStep (s : State) : Prop :=
  ∃ t, step s = .next t ∧ t.fault = none

/-- The environment's time duty (R134) for the next transaction of `s`: a POLL is not below the open window's start. -/
def TimeDuty (s : State) : Prop :=
  ∀ now s', takeTransaction s = some (.poll now, s') → s.windowStart.toNat ≤ now.toNat

end Sys2Proof.Machine
end

