-- ==== Sys2Proof/Certificates/Slice0/Obligations.lean ====
section
/-!
DEFINITION. Certificates/Slice0/Obligations.lean: the statements for the provers, one `def Obligations.<Name> : Prop` each, in the order of
OBLIGATIONS.json. Every statement about a block quantifies over its configuration, and so over every value of the OPEN
parameters (spec/00_scope.md R7), or says `Config.hw` where it is about this hardware's tables.
-/

open Sys2Proof Sys2Proof.Machine

/-! ### Reset, launch and construction -/

/-- R26: RESET(now) and the launch state give every field the rule's value, and RESET leaves the configuration. At launch the
sequence base and the window's start are the OPEN parameters. -/
def Obligations.ResetAndLaunchValues : Prop :=
  (∀ (now : Time) (s : State), ∃ t, exec (.reset now) s = .next t ∧
    t.carry = [] ∧ statusCarryCount t = 0 ∧ t.runActive = false ∧ statusRunActive t = 0 ∧
    t.seqNext = s.cfg.seqBase ∧ t.windowStart = now ∧ t.totalBytes = 0 ∧ t.totalPackets = 0 ∧
    t.validPackets = 0 ∧ t.readCount = 0 ∧ t.writeCount = 0 ∧ t.cfg = s.cfg) ∧
  State.reset.carry = [] ∧ statusCarryCount State.reset = 0 ∧ State.reset.runActive = false ∧
  statusRunActive State.reset = 0 ∧ State.reset.seqNext = State.reset.cfg.seqBase ∧
  State.reset.windowStart = Config.launchTime ∧ State.reset.totalBytes = 0 ∧ State.reset.totalPackets = 0 ∧
  State.reset.validPackets = 0 ∧ State.reset.readCount = 0 ∧ State.reset.writeCount = 0

/-- R128: a constructed block is in the state that RESET at its launch time produces, whatever state that RESET is applied to (with the same
configuration and environment), with no fault; and this hardware's launch state is the constructed one. -/
def Obligations.LaunchIsResetState : Prop :=
  (∀ (c : Config) (now0 : Time) (s0 s : State), construct c now0 = .ok s0 → s.cfg = c → s.fault = none →
    s.pending = [] → exec (.reset now0) s = .next s0 ∧ s0.fault = none) ∧
  construct Config.hw Config.launchTime = .ok State.reset

/-- R106: RESET re-constructs the block: the carry and the open window are discarded with no record, `now` is not checked, and the
fault mark, the configuration and the environment's transactions stay. A faulted block takes no RESET. -/
def Obligations.ResetResult : Prop :=
  (∀ (now : Time) (s : State), exec (.reset now) s = .next
    { s with
      carry := [], runActive := false, seqNext := s.cfg.seqBase, windowStart := now, totalBytes := 0, totalPackets := 0,
      validPackets := 0, readCount := 0, writeCount := 0, event := none, stats := none }) ∧
  ∀ (now : Time) (r : Fault) (s : State), configCheck s.cfg = true → s.fault = some r →
    step (issueNext (resetWord now) s) = .fault r

/-- R68: the configuration check passes exactly when the seven conditions hold, entries of a table need not be distinct, and this
hardware's configuration passes. -/
def Obligations.ConfigCheckConditions : Prop :=
  (∀ c : Config, configCheck c = true ↔
    c.addrPos.length = 13 ∧ c.dataPos.length = 8 ∧ (∀ p ∈ c.addrPos ++ c.dataPos, p < 32) ∧
    (c.d1Src < 32 ∧ c.weBit < 32 ∧ c.oeBit < 32) ∧ c.weBit ≠ c.oeBit ∧ c.windowTicks ≠ 0 ∧ c.ticksPerSecond ≠ 0) ∧
  (∀ c : Config, configCheck c = true →
    configCheck { c with addrPos := List.replicate 13 3, dataPos := List.replicate 8 3 } = true) ∧
  configCheck Config.hw = true

/-- R116, R120: a configuration that fails the check yields no block, and a state that carries one has no step, whatever else it
holds; a legal one is constructed, and this hardware's is. -/
def Obligations.InvalidConfigHasNoBlock : Prop :=
  (∀ (c : Config) (now0 : Time), configCheck c = false → construct c now0 = .error .invalidConfig) ∧
  (∀ s : State, configCheck s.cfg = false → step s = .refused .invalidConfig) ∧
  (∀ (c : Config) (now0 : Time), configCheck c = true → ∃ s, construct c now0 = .ok s ∧ s.cfg = c) ∧
  ∃ s, construct Config.hw Config.launchTime = .ok s

/-! ### The step -/

/-- R102: when the environment's next command word is `C`, a step of a legal, unfaulted block is `exec` of the instruction `C`
decodes to, in the state with that word consumed. -/
def Obligations.StepRunsDecodedInstruction : Prop :=
  ∀ (s : State) (C : Command) (rest : List Command), configCheck s.cfg = true → s.fault = none →
    s.pending = C :: rest → step s = exec (decode s.cfg (.cmd C)) { s with pending := rest }

/-- R139 and log entry 1 (DESIGN CHOICE: the model's step where the environment issues nothing): the block is idle, and all of its state
survives; only the outputs of the step before are gone. -/
def Obligations.IdleStepKeepsState : Prop :=
  ∀ s : State, configCheck s.cfg = true → s.fault = none → s.pending = [] →
    step s = .next { s with event := none, stats := none }

/-- R102, R122: a faulted state takes no step, whatever transaction comes, RESET included: it stays at its fault. -/
def Obligations.FaultedStateTakesNoStep : Prop :=
  ∀ (s : State) (r : Fault) (C : Command), configCheck s.cfg = true → s.fault = some r →
    step s = .fault r ∧ step (issueNext C s) = .fault r

/-- R102, R104 and log entry 2 (how the model places one instruction): a placed packet word runs as that packet, at the end of the PUSH of its
8th byte; a placed command word runs as that transaction. -/
def Obligations.PlacedInstructionRuns : Prop :=
  ∀ (s : State) (w : Nat), configCheck s.cfg = true → s.fault = none →
    step (s.withFetchWord 64 w) =
      exec (decode s.cfg (.pkt (BitVec.ofNat 64 w))) { s with carry := [], totalBytes := s.totalBytes + 1 } ∧
    step (s.withFetchWord 72 w) = exec (decode s.cfg (.cmd (BitVec.ofNat 66 w))) s

/-! ### Encodings -/

/-- R59: the kind of a command word selects the transaction, and its payload gives the operand. -/
def Obligations.CommandKinds : Prop :=
  ∀ (c : Config) (C : Command),
    (C.extractLsb' 64 2 = 0#2 → decode c (.cmd C) = .nop) ∧
    (C.extractLsb' 64 2 = 1#2 → decode c (.cmd C) = .push (C.extractLsb' 0 8)) ∧
    (C.extractLsb' 64 2 = 2#2 → decode c (.cmd C) = .poll (C.extractLsb' 0 64)) ∧
    (C.extractLsb' 64 2 = 3#2 → decode c (.cmd C) = .reset (C.extractLsb' 0 64))

/-- R60: every command word is a defined transaction (in a legal, unfaulted block its step has a next state); the payload of NOP and `C[63:8]` of PUSH change
nothing; and the assembler writes them as 0. -/
def Obligations.IgnoredPayloadBits : Prop :=
  (∀ (C : Command) (s : State), configCheck s.cfg = true → s.fault = none → ∃ t, step (issueNext C s) = .next t) ∧
  (∀ (p q : BitVec 64) (s : State), step (issueNext (0#2 ++ p) s) = step (issueNext (0#2 ++ q) s)) ∧
  (∀ (p q : BitVec 64) (s : State), p.extractLsb' 0 8 = q.extractLsb' 0 8 →
    step (issueNext (1#2 ++ p) s) = step (issueNext (1#2 ++ q) s)) ∧
  (∀ c : Config, encode c .nop = .cmd (0#2 ++ 0#64)) ∧
  ∀ (c : Config) (b : Byte), encode c (.push b) = .cmd (1#2 ++ (0#56 ++ b))

/-- R54: the two strobe bits select the class of a packet word by the masks of the opcode map; the three classes are
disjoint and cover every word; both strobes low is WRITE. -/
def Obligations.PacketClassByStrobes : Prop :=
  ∀ P : Packet,
    (P &&& 0x0000000100000000 = 0x0000000000000000 ↔ ∃ a d, decode Config.hw (.pkt P) = .pktWrite a d) ∧
    (P &&& 0x0000000300000000 = 0x0000000100000000 ↔ ∃ a d, decode Config.hw (.pkt P) = .pktRead a d) ∧
    (P &&& 0x0000000300000000 = 0x0000000300000000 ↔ ∃ a d, decode Config.hw (.pkt P) = .pktUnknown a d) ∧
    (P.getLsbD 32 = false → P.getLsbD 33 = false → (decodePacket Config.hw P).op = .write)

/-- R75: CLASSIFY tests WE first and OE second, active low, and reads no other bit of `reg_b` or `reg_a`. -/
def Obligations.StrobeRule : Prop :=
  (∀ (c : Config) (b : Word),
    (b.getLsbD c.weBit = false → opOf c b = .write) ∧
    (b.getLsbD c.weBit = true → b.getLsbD c.oeBit = false → opOf c b = .read) ∧
    (b.getLsbD c.weBit = true → b.getLsbD c.oeBit = true → opOf c b = .unknown)) ∧
  (∀ P Q : Packet, P.getLsbD 32 = Q.getLsbD 32 → P.getLsbD 33 = Q.getLsbD 33 →
    (decodePacket Config.hw P).op = (decodePacket Config.hw Q).op) ∧
  opOf Config.hw 0x00000002 = .write ∧ opOf Config.hw 0x00000001 = .read

/-- R56: every packet word decodes to an operation, an address and a data value, and the bits that R52 and R53 list as ignored never change
the result: words that agree on the bits read decode alike. -/
def Obligations.IgnoredPacketBits : Prop :=
  ∀ P Q : Packet,
    (∀ k ∈ [2, 3, 12, 13, 16, 17, 18, 19, 20, 21, 22, 23, 24, 25, 32, 33, 34, 35, 42, 43, 44, 48, 60, 61],
      P.getLsbD k = Q.getLsbD k) →
    decode Config.hw (.pkt P) = decode Config.hw (.pkt Q)

/-- R57: no bit of a packet feeds more than one output field: flipping one bit leaves at least two of the operation, the address and
the data as they were. -/
def Obligations.NoBitFeedsTwoFields : Prop :=
  ∀ (P : Packet) (k : Nat),
    let d := decodePacket Config.hw P
    let e := decodePacket Config.hw (P ^^^ 1#64 <<< k)
    (d.op = e.op ∧ d.address = e.address) ∨ (d.op = e.op ∧ d.data = e.data) ∨
      (d.address = e.address ∧ d.data = e.data)

/-- R37: the packet word is the little-endian reading of the packet's 8 bytes, `reg_a` the first four and `reg_b` the last
four. -/
def Obligations.PacketWordLittleEndian : Prop :=
  ∀ b0 b1 b2 b3 b4 b5 b6 b7 : Byte,
    let P := packetWord [b0, b1, b2, b3, b4, b5, b6, b7]
    regA P = le32 b0 b1 b2 b3 ∧ regB P = le32 b4 b5 b6 b7 ∧
      P = (regA P).setWidth 64 ||| (regB P).setWidth 64 <<< 32 ∧
      packetBytes P = [b0, b1, b2, b3, b4, b5, b6, b7]

/-- Tier 3: the encoder and the decoder agree on every instruction, for every wiring whose tables have no repeated position and share none with
the strobes or the D1 bit; this hardware's wiring is one. No bit of an operand is dropped. -/
def Obligations.DecodeEncodeRoundTrip : Prop :=
  (∀ c : Config, configCheck c = true → c.addrPos.Nodup → c.dataPos.Nodup → c.d1Src ∉ c.addrPos →
    c.weBit ∉ c.dataPos → c.oeBit ∉ c.dataPos → ∀ i : Instr, decode c (encode c i) = i) ∧
  ∀ i : Instr, decode Config.hw (encode Config.hw i) = i

/-- Sample words written out from R52 to R54 and R59 decode to the instruction they stand for. Two points are the model's choice, log entry
10, and no rule's: that 72 bits are read as a 66-bit command word in whole bytes, and, in the last clause, that a value with a bit
above those 66 is refused. -/
def Obligations.SampleWordsDecode : Prop :=
  decodeTableWord 64 0x0000000000000008 = some (.pktWrite 1 0) ∧
  decodeTableWord 64 0x1001140103572000 = some (.pktRead 6844 90) ∧
  decodeTableWord 64 0x1000000300000000 = some (.pktUnknown 0 2) ∧
  decodeTableWord 72 0x0DEADBEEFDEADBEEF = some .nop ∧
  decodeTableWord 72 0x1FFFFFFFFFFFFFF08 = some (.push 0x08) ∧
  decodeTableWord 72 0x200000000000F4240 = some (.poll 1000000) ∧
  decodeTableWord 72 0x30000000000000032 = some (.reset 50) ∧
  decodeTableWord 72 0x40000000000000000 = none

/-- R65: the command words of each assembler statement, as the numbers the rule writes in hexadecimal. -/
def Obligations.AssemblerExpansions : Prop :=
  assembleLine .nop = some [0x00000000000000000#66] ∧
  (∀ b : Nat, b < 2 ^ 8 → assembleLine (.push b) = some [BitVec.ofNat 66 (1 * 2 ^ 64 + b)]) ∧
  (∀ t : Nat, t < 2 ^ 64 → assembleLine (.poll t) = some [BitVec.ofNat 66 (2 * 2 ^ 64 + t)]) ∧
  (∀ t : Nat, t < 2 ^ 64 → assembleLine (.reset t) = some [BitVec.ofNat 66 (3 * 2 ^ 64 + t)]) ∧
  (∀ (bs : List Nat) (t : Nat), (∀ b ∈ bs, b < 2 ^ 8) → t < 2 ^ 64 →
    assembleLine (.feed bs t) =
      some (bs.map (fun b => BitVec.ofNat 66 (1 * 2 ^ 64 + b)) ++ [BitVec.ofNat 66 (2 * 2 ^ 64 + t)])) ∧
  ∀ ra rb : Word, assembleLine (.packet ra.toNat rb.toNat) =
    some (([ra.extractLsb' 0 8, ra.extractLsb' 8 8, ra.extractLsb' 16 8, ra.extractLsb' 24 8,
      rb.extractLsb' 0 8, rb.extractLsb' 8 8, rb.extractLsb' 16 8, rb.extractLsb' 24 8] : List Byte).map
        fun b => BitVec.ofNat 66 (1 * 2 ^ 64 + b.toNat))

/-! ### Bit permutation -/

/-- R67: bit `i` of EXTRACT is the value's bit at entry `i` of the table, and the bits from the table's length on are 0; an all-zero value gives
0 and an all-ones value gives 2^n - 1. -/
def Obligations.ExtractBits : Prop :=
  (∀ (value : Word) (positions : List Nat), positions.length ≤ 32 →
    (∀ (i : Nat) (h : i < positions.length), (extract value positions).getLsbD i = value.getLsbD positions[i]) ∧
    ∀ i : Nat, positions.length ≤ i → (extract value positions).getLsbD i = false) ∧
  (∀ positions : List Nat, extract 0 positions = 0) ∧
  ∀ positions : List Nat, positions.length ≤ 32 → (∀ p ∈ positions, p < 32) →
    (extract 0xFFFFFFFF positions).toNat = 2 ^ positions.length - 1

/-- R69: EXTRACT-EXTRA ORs bit `src` of the other register into bit `dst`: it can set that bit and no other, and clears none. -/
def Obligations.ExtractExtraBits : Prop :=
  ∀ (value other : Word) (positions : List Nat) (src dst : Nat), positions.length ≤ 32 → src < 32 →
    dst < positions.length →
    (∀ i : Nat, (extractExtra value positions other src dst).getLsbD i =
      ((extract value positions).getLsbD i || (decide (i = dst) && other.getLsbD src))) ∧
    ∀ i : Nat, positions.length ≤ i → (extractExtra value positions other src dst).getLsbD i = false

/-- R72: over tables of in-range entries (at most 32, R67), EXTRACT undoes `deposit` for every value that fits exactly where the entries are
pairwise distinct: a table with a repeated entry fails for some value. Both tables of this hardware are distinct; the rule's example
`[5, 5]` fails for 1. -/
def Obligations.ExtractUndoesDeposit : Prop :=
  (∀ (positions : List Nat) (v : Word), positions.Nodup → (∀ p ∈ positions, p < 32) →
    v.toNat < 2 ^ positions.length → extract (deposit v positions) positions = v) ∧
  (∀ positions : List Nat, ¬ positions.Nodup → (∀ p ∈ positions, p < 32) → positions.length ≤ 32 →
    ∃ v : Word, v.toNat < 2 ^ positions.length ∧ extract (deposit v positions) positions ≠ v) ∧
  Config.hw.addrPos.Nodup ∧ Config.hw.dataPos.Nodup ∧
  deposit 1 [5, 5] = 0x20 ∧ extract (deposit 1 [5, 5]) [5, 5] = 3

/-- R70: address bit `i` is `reg_a` at `ADDR_POS[i]`; no other bit of `reg_a` and no bit of `reg_b` affects it. -/
def Obligations.AddressBits : Prop :=
  (∀ a : Word,
    let x := addrOf Config.hw a
    x.getLsbD 0 = a.getLsbD 3 ∧ x.getLsbD 1 = a.getLsbD 12 ∧ x.getLsbD 2 = a.getLsbD 13 ∧
    x.getLsbD 3 = a.getLsbD 16 ∧ x.getLsbD 4 = a.getLsbD 17 ∧ x.getLsbD 5 = a.getLsbD 18 ∧
    x.getLsbD 6 = a.getLsbD 19 ∧ x.getLsbD 7 = a.getLsbD 20 ∧ x.getLsbD 8 = a.getLsbD 21 ∧
    x.getLsbD 9 = a.getLsbD 22 ∧ x.getLsbD 10 = a.getLsbD 23 ∧ x.getLsbD 11 = a.getLsbD 24 ∧
    x.getLsbD 12 = a.getLsbD 25) ∧
  (∀ a b b' : Word, (decodePacket Config.hw (pktWord a b)).address = addrOf Config.hw a ∧
    (decodePacket Config.hw (pktWord a b)).address = (decodePacket Config.hw (pktWord a b')).address) ∧
  addrOf Config.hw 0x03FF3008 = 8191 ∧ addrOf Config.hw 0xFC00CFF7 = 0

/-- R71: data bit `i` is `reg_b` at `DATA_POS[i]`, and data bit 0 also takes `reg_a` bit 2 by OR; the strobes never affect the data. -/
def Obligations.DataBits : Prop :=
  (∀ a b : Word,
    let x := dataOf Config.hw a b
    x.getLsbD 0 = (b.getLsbD 2 || a.getLsbD 2) ∧ x.getLsbD 1 = b.getLsbD 28 ∧ x.getLsbD 2 = b.getLsbD 29 ∧
    x.getLsbD 3 = b.getLsbD 16 ∧ x.getLsbD 4 = b.getLsbD 12 ∧ x.getLsbD 5 = b.getLsbD 11 ∧
    x.getLsbD 6 = b.getLsbD 10 ∧ x.getLsbD 7 = b.getLsbD 3) ∧
  (∀ (a b : Word) (m : BitVec 2), dataOf Config.hw a (b ^^^ m.setWidth 32) = dataOf Config.hw a b) ∧
  dataOf Config.hw 0 0x30011C0C = 255 ∧ dataOf Config.hw 0 0xCFFEE3F3 = 0 ∧ dataOf Config.hw 4 0 = 1

/-- R74: DECODE splits the packet word into `reg_a` and `reg_b` and gives the class, the address and the data, for every class; an instruction
decoded from a packet carries that address and data. -/
def Obligations.DecodePacketFields : Prop :=
  (∀ (c : Config) (a b : Word), decodePacket c (pktWord a b) = ⟨opOf c b, addrOf c a, dataOf c a b⟩) ∧
  (∀ (c : Config) (P : Packet),
    decode c (.pkt P) = .pktWrite (decodePacket c P).address (decodePacket c P).data ∨
    decode c (.pkt P) = .pktRead (decodePacket c P).address (decodePacket c P).data ∨
    decode c (.pkt P) = .pktUnknown (decodePacket c P).address (decodePacket c P).data) ∧
  decodePacket Config.hw 0 = ⟨.write, 0, 0⟩ ∧
  decodePacket Config.hw 0xFFFFFFFFFFFFFFFF = ⟨.unknown, 8191, 255⟩

/-! ### The packet classes -/

/-- `P[32] = 0` selects WRITE whatever `P[33]` is (R76); the class run by itself takes a number (R85), sets the run flag (R84), counts as a packet, a
valid packet and a write (R90), and drives its event (R61). That a packet class can be run by itself, as the part of PUSH after
decoding, and that it then leaves the carry, the byte count and everything else alone, is the model's choice, log entry 2;
`PacketClassesRunByPush` says what the rule says of a WRITE packet,
on the PUSH that completes it. -/
def Obligations.PktWriteResult : Prop :=
  (∀ P : Packet, P.getLsbD 32 = false → decode Config.hw (.pkt P) =
    .pktWrite (addrOf Config.hw (regA P)) (dataOf Config.hw (regA P) (regB P))) ∧
  ∀ (a : Addr) (d : Byte) (s : State), exec (.pktWrite a d) s = .next
    { s with
      seqNext := s.seqNext + 1, runActive := true, totalPackets := s.totalPackets + 1,
      validPackets := s.validPackets + 1, writeCount := s.writeCount + 1,
      event := some ⟨.write, some s.seqNext, a, d⟩, stats := none }

/-- `P[33:32] = 01` selects READ (R77); the class run by itself takes a number (R85), sets the run flag (R84), counts as a packet, a valid
packet and a read (R90), and drives its event (R61). That a packet class can be run by itself, as the part of PUSH after
decoding, and that it then leaves the carry, the byte count and everything else alone, is the model's choice, log entry 2;
`PacketClassesRunByPush` says what the rule says of a READ packet,
on the PUSH that completes it. -/
def Obligations.PktReadResult : Prop :=
  (∀ P : Packet, P.getLsbD 32 = true → P.getLsbD 33 = false → decode Config.hw (.pkt P) =
    .pktRead (addrOf Config.hw (regA P)) (dataOf Config.hw (regA P) (regB P))) ∧
  ∀ (a : Addr) (d : Byte) (s : State), exec (.pktRead a d) s = .next
    { s with
      seqNext := s.seqNext + 1, runActive := true, totalPackets := s.totalPackets + 1,
      validPackets := s.validPackets + 1, readCount := s.readCount + 1,
      event := some ⟨.read, some s.seqNext, a, d⟩, stats := none }

/-- `P[33:32] = 11` selects UNKNOWN (R78); the class run by itself takes no number (R85), clears the run flag (R84), counts as a packet only
(R90), and drives its event with the address and the data (R61). That a packet class can be run by itself, as the part of PUSH after
decoding, and that it then leaves the carry, the byte count and everything else alone, is the model's choice, log entry 2;
`PacketClassesRunByPush` says what the rule says of an UNKNOWN packet,
on the PUSH that completes it. -/
def Obligations.PktUnknownResult : Prop :=
  (∀ P : Packet, P.getLsbD 32 = true → P.getLsbD 33 = true → decode Config.hw (.pkt P) =
    .pktUnknown (addrOf Config.hw (regA P)) (dataOf Config.hw (regA P) (regB P))) ∧
  ∀ (a : Addr) (d : Byte) (s : State), exec (.pktUnknown a d) s = .next
    { s with
      runActive := false, totalPackets := s.totalPackets + 1,
      event := some ⟨.unknown, none, a, d⟩, stats := none }

/-! ### The transactions -/

/-- R103: NOP changes no state and drives no output. -/
def Obligations.NopResult : Prop :=
  ∀ s : State, exec .nop s = .next { s with event := none, stats := none }

/-- R104: the first 7 PUSHes after a boundary only buffer and count the byte; the 8th also decodes the packet, numbers it, sets the run flag, counts
it and drives its event. A PUSH drives no statistics record and never faults. Premise: the carry holds at most 7 bytes, which
`InvariantKeptByStep` states of every run. -/
def Obligations.PushResult : Prop :=
  ∀ (b : Byte) (s : State),
    (s.carry.length < 7 → exec (.push b) s = .next
      { s with carry := s.carry ++ [b], totalBytes := s.totalBytes + 1, event := none, stats := none }) ∧
    (s.carry.length = 7 →
      let d := decodePacket s.cfg (packetWord (s.carry ++ [b]))
      let valid := d.op = .read ∨ d.op = .write
      exec (.push b) s = .next
        { s with
          carry := [], totalBytes := s.totalBytes + 1, totalPackets := s.totalPackets + 1,
          runActive := decide valid,
          seqNext := if valid then s.seqNext + 1 else s.seqNext,
          validPackets := if valid then s.validPackets + 1 else s.validPackets,
          readCount := if d.op = .read then s.readCount + 1 else s.readCount,
          writeCount := if d.op = .write then s.writeCount + 1 else s.writeCount,
          event := some ⟨d.op, if valid then some s.seqNext else none, d.address, d.data⟩,
          stats := none })

/-- Log entry 2, the model's choice: the packet classes are instructions that run inside the PUSH of their 8th byte, the byte count and the carry
being that PUSH's own. With it, what R104 says of a completing PUSH is what the packet's instruction does. -/
def Obligations.PacketRunsInsidePush : Prop :=
  ∀ (b : Byte) (s : State), s.carry.length = 7 →
    exec (.push b) s =
      exec (decode s.cfg (.pkt (packetWord (s.carry ++ [b])))) { s with carry := [], totalBytes := s.totalBytes + 1 }

/-- R81: a PUSH below 7 carried bytes stores its byte at the end and yields no packet; the 8th byte is not stored, completes the packet of the 8 bytes
in arrival order, and leaves the carry empty. -/
def Obligations.AcceptByteResult : Prop :=
  ∀ (b : Byte) (s : State), s.carry.length ≤ 7 → ∃ t, exec (.push b) s = .next t ∧
    (s.carry.length < 7 → t.carry = s.carry ++ [b] ∧ t.event = none) ∧
    (s.carry.length = 7 → t.carry = [] ∧
      t.event.map eventPacket = some (decodePacket s.cfg (packetWord (s.carry ++ [b])))) ∧
    t.carry.length ≤ 7

/-- R84: the run flag after a completed packet is the transition table's; a PUSH that completes none leaves it; RESET sets
Idle. -/
def Obligations.RunFlagTable : Prop :=
  (∀ (b : Byte) (s : State), s.carry.length = 7 → ∃ t, exec (.push b) s = .next t ∧
    (t.runActive = true ↔ (decodePacket s.cfg (packetWord (s.carry ++ [b]))).op = .write ∨
      (decodePacket s.cfg (packetWord (s.carry ++ [b]))).op = .read)) ∧
  (∀ (b : Byte) (s : State), s.carry.length < 7 → ∃ t, exec (.push b) s = .next t ∧ t.runActive = s.runActive) ∧
  ∀ (now : Time) (s : State), ∃ t, exec (.reset now) s = .next t ∧ t.runActive = false

/-- R61, R62: a PUSH that completes a packet drives an event record with the rule's fields; no other transaction drives
one. -/
def Obligations.EventRecordFields : Prop :=
  (∀ (b : Byte) (s : State), s.carry.length = 7 →
    let d := decodePacket s.cfg (packetWord (s.carry ++ [b]))
    ∃ t e, exec (.push b) s = .next t ∧ t.event = some e ∧
      (d.op = .read → evOp e = 0b00#2 ∧ evSeqValid e = 1 ∧ evSeq e = some s.seqNext) ∧
      (d.op = .write → evOp e = 0b01#2 ∧ evSeqValid e = 1 ∧ evSeq e = some s.seqNext) ∧
      (d.op = .unknown → evOp e = 0b10#2 ∧ evSeqValid e = 0 ∧ evSeq e = none) ∧
      evAddr e = d.address ∧ evData e = d.data ∧ evOp e ≠ 0b11#2) ∧
  (∀ (b : Byte) (s : State), s.carry.length < 7 → ∃ t, exec (.push b) s = .next t ∧ t.event = none) ∧
  ∀ (now : Time) (s : State), (∃ t, exec .nop s = .next t ∧ t.event = none) ∧
    (∃ t, exec (.poll now) s = .next t ∧ t.event = none) ∧ ∃ t, exec (.reset now) s = .next t ∧ t.event = none

/-- R92: a POLL in the open window before it is due changes no state and drives no record. -/
def Obligations.PollNotDueResult : Prop :=
  ∀ (now : Time) (s : State), s.windowStart.toNat ≤ now.toNat →
    now.toNat < s.windowStart.toNat + s.cfg.windowTicks.toNat →
    exec (.poll now) s = .next { s with event := none, stats := none }

/-- R93: a POLL that is due closes the window: it drives the record of the old window and opens a window at `now` with
every counter 0, and changes nothing else. -/
def Obligations.PollClosesDueWindow : Prop :=
  ∀ (now : Time) (s : State), s.windowStart.toNat + s.cfg.windowTicks.toNat ≤ now.toNat →
    exec (.poll now) s = .next
      { s with
        windowStart := now, totalBytes := 0, totalPackets := 0, validPackets := 0, readCount := 0, writeCount := 0,
        event := none,
        stats := some
          { windowStart := s.windowStart, windowEnd := now, totalBytes := s.totalBytes,
            totalPackets := s.totalPackets, validPackets := s.validPackets, readCount := s.readCount,
            writeCount := s.writeCount } }

/-- R94: a POLL of an unfaulted block below the window's start sets the fault mark with both times, changes nothing else and drives no
record. -/
def Obligations.PollTimeRegressionFaults : Prop :=
  ∀ (now : Time) (s : State), s.fault = none → now.toNat < s.windowStart.toNat →
    exec (.poll now) s = .next
      { s with fault := some (.timeRegression now s.windowStart), event := none, stats := none }

/-- R115, R121: the whole course of a time regression: the step of the POLL sets the mark and nothing else, and the state it leaves takes no
step. -/
def Obligations.TimeRegressionStopsTheRun : Prop :=
  ∀ (now : Time) (rest : List Command) (s : State), configCheck s.cfg = true → s.fault = none →
    s.pending = pollWord now :: rest → now.toNat < s.windowStart.toNat →
    ∃ t, step s = .next t ∧
      t = { s with
        pending := rest, fault := some (.timeRegression now s.windowStart), event := none, stats := none } ∧
      step t = .fault (.timeRegression now s.windowStart)

/-- R118, R120: a step raises the fault only for a POLL below the window's start; nothing else raises anything. -/
def Obligations.OnlyPollRaisesFault : Prop :=
  ∀ s t : State, step s = .next t →
    (t.fault ≠ none ↔ ∃ now s', takeTransaction s = some (.poll now, s') ∧ now.toNat < s.windowStart.toNat)

/-- R44, R108: no step drives both an event and a statistics record; NOP and RESET drive neither; a PUSH drives no statistics record and a
POLL no event. -/
def Obligations.OutputsByTransaction : Prop :=
  ∀ (i : Instr) (s t : State), exec i s = .next t →
    (t.event = none ∨ t.stats = none) ∧
    (t.event ≠ none → (∃ b, i = .push b ∧ 7 ≤ s.carry.length) ∨ (∃ a d, i = .pktWrite a d) ∨
      (∃ a d, i = .pktRead a d) ∨ ∃ a d, i = .pktUnknown a d) ∧
    (t.stats ≠ none → ∃ now, i = .poll now ∧ windowDue now s = true)

/-- R22, R48, R137: no transaction changes the configuration, and none touches the transactions to come. -/
def Obligations.ConfigurationIsFixed : Prop :=
  (∀ (i : Instr) (s : State), ∃ t, exec i s = .next t ∧ t.cfg = s.cfg ∧ t.pending = s.pending) ∧
  ∀ s t : State, step s = .next t → t.cfg = s.cfg ∧ t.pending = s.pending.tail

/-- R23: the status outputs equal the fields. Premise: the carry holds at most 7 bytes, which `InvariantKeptByStep` states of
every run. -/
def Obligations.StatusOutputs : Prop :=
  ∀ s : State, s.carry.length ≤ 7 →
    (statusCarryCount s).toNat = s.carry.length ∧ (statusRunActive s = 1 ↔ s.runActive = true)

/-- R99, R85: every counter and the sequence counter count modulo 2^64, on the PUSH. Every PUSH counts its byte. A PUSH that completes a packet
counts it in the total, UNKNOWN included, and by its class; a valid packet takes the sequence number, which then advances, and an UNKNOWN one
takes none. A PUSH that completes none counts nothing else. Fewer than 2^64 PUSHes in one window wrap no counter: each then holds its exact
count. That the counters wrap is the spec's own choice (D9). -/
def Obligations.CountersWrap : Prop :=
  (∀ (b : Byte) (s : State), ∃ t, exec (.push b) s = .next t ∧ t.fault = s.fault ∧
    t.totalBytes.toNat = (s.totalBytes.toNat + 1) % 2 ^ 64 ∧
    (s.carry.length < 7 →
      t.totalPackets = s.totalPackets ∧ t.validPackets = s.validPackets ∧ t.readCount = s.readCount ∧
      t.writeCount = s.writeCount ∧ t.seqNext = s.seqNext) ∧
    (s.carry.length = 7 →
      let op := (decodePacket s.cfg (packetWord (s.carry ++ [b]))).op
      t.totalPackets.toNat = (s.totalPackets.toNat + 1) % 2 ^ 64 ∧
      (op = .read →
        t.validPackets.toNat = (s.validPackets.toNat + 1) % 2 ^ 64 ∧
        t.readCount.toNat = (s.readCount.toNat + 1) % 2 ^ 64 ∧ t.writeCount = s.writeCount) ∧
      (op = .write →
        t.validPackets.toNat = (s.validPackets.toNat + 1) % 2 ^ 64 ∧
        t.writeCount.toNat = (s.writeCount.toNat + 1) % 2 ^ 64 ∧ t.readCount = s.readCount) ∧
      (op = .read ∨ op = .write →
        t.event.bind Event.seq = some s.seqNext ∧ t.seqNext.toNat = (s.seqNext.toNat + 1) % 2 ^ 64) ∧
      (op = .unknown →
        t.validPackets = s.validPackets ∧ t.readCount = s.readCount ∧ t.writeCount = s.writeCount ∧
        t.event.bind Event.seq = none ∧ t.seqNext = s.seqNext))) ∧
  ∀ (now : Time) (chunk : List Byte) (s : State), s.carry.length ≤ 7 → chunk.length < 2 ^ 64 →
    let ds := decodedPackets s.cfg (s.carry ++ chunk)
    let t := (pushChunk chunk (openWindow now s)).2
    t.totalBytes.toNat = chunk.length ∧ t.totalPackets.toNat = ds.length ∧
    t.validPackets.toNat = ds.countP (fun d => d.op != .unknown) ∧
    t.readCount.toNat = ds.countP (fun d => d.op == .read) ∧
    t.writeCount.toNat = ds.countP (fun d => d.op == .write)

/-! ### Invariants -/

/-- The launch state meets the invariant. -/
def Obligations.InvariantAtLaunch : Prop := Inv State.reset

/-- Tier 3: every step keeps the invariant `Inv` of Safety.lean: the configuration stays legal, the carry holds at most 7 bytes, the window's
counters balance (R28), a fault mark is a true time regression (R115), at most one record is driven (R108), an event is
numbered exactly when valid (R61), and a driven record closed a due window (R95). -/
def Obligations.InvariantKeptByStep : Prop :=
  ∀ s t : State, Inv s → step s = .next t → Inv t

/-- R28 (b): `valid_packets ≤ total_packets` is kept by every step that does not wrap `total_packets`. -/
def Obligations.ValidNotAboveTotal : Prop :=
  ∀ s t : State, s.validPackets.toNat ≤ s.totalPackets.toNat → s.totalPackets.toNat < 2 ^ 64 - 1 →
    step s = .next t → t.validPackets.toNat ≤ t.totalPackets.toNat

/-- R110, R134: under the time duty, a block that meets the invariant and is not faulted takes a correct step, whatever the environment
issues. -/
def Obligations.TimeDutyKeepsRunCorrect : Prop :=
  ∀ s : State, Inv s → s.fault = none → TimeDuty s → SafeStep s

/-! ### Noninterference -/

/-- R18: nothing reads the run flag: two states that differ only in it take every transaction to states that agree in everything
but it. -/
def Obligations.RunFlagReadByNothing : Prop :=
  ∀ (i : Instr) (s : State) (v : Bool), ∃ t t', exec i s = .next t ∧ exec i { s with runActive := v } = .next t' ∧
    t' = { t with runActive := t'.runActive }

/-- R79, R38: the decoded packet of an event depends on the configuration, the carry bytes and the pushed byte alone: not on the run flag, the
sequence counter or the window. -/
def Obligations.DecoderReadsOnlyThePacket : Prop :=
  ∀ (b : Byte) (s s' : State), s.cfg = s'.cfg → s.carry = s'.carry →
    ∃ t t', exec (.push b) s = .next t ∧ exec (.push b) s' = .next t' ∧
      t.event.map eventPacket = t'.event.map eventPacket ∧ t.carry = t'.carry

/-! ### Streams and windows -/

/-- R82, R39: a chunk pushed on `k` carried bytes completes as many packets as the count gives, each of the next 8 bytes in arrival order, and the
carry keeps the last bytes. -/
def Obligations.ChunkPacketsByCount : Prop :=
  ∀ (c : List Byte) (s : State), s.carry.length ≤ 7 →
    let r := pushChunk c s
    r.1.length = (s.carry.length + c.length) / 8 ∧
    r.2.carry.length = (s.carry.length + c.length) % 8 ∧
    r.2.carry = (s.carry ++ c).drop (8 * r.1.length) ∧
    r.1.map eventPacket = (wholePackets (s.carry ++ c)).map fun bs => decodePacket s.cfg (packetWord bs)

/-- R83 with R84, R85, R89, R90: what chunks do is a function of the state before and of their bytes joined, however they are cut. The
right side is built from those bytes alone, without the machine's operations on the state: the events with their numbers, the carry, the run flag, the
sequence counter and every counter; the window's start, the configuration and the fault mark stay. The last clause adds the outputs of the last
step, so that the whole final state is the same for two ways of cutting. -/
def Obligations.ChunkBoundariesDoNotMatter : Prop :=
  (∀ (cs : List (List Byte)) (s : State), s.carry.length ≤ 7 →
    let bytes := s.carry ++ cs.flatten
    let ds := decodedPackets s.cfg bytes
    let r := pushChunks cs s
    r.1 = numberedEvents s.seqNext ds ∧
    r.2.carry = bytes.drop (8 * (bytes.length / 8)) ∧
    r.2.runActive = runFlagAfter s.runActive ds ∧
    r.2.seqNext = s.seqNext + packetCount (fun op => op != .unknown) ds ∧
    r.2.totalBytes = s.totalBytes + BitVec.ofNat 64 cs.flatten.length ∧
    r.2.totalPackets = s.totalPackets + BitVec.ofNat 64 (bytes.length / 8) ∧
    r.2.validPackets = s.validPackets + packetCount (fun op => op != .unknown) ds ∧
    r.2.readCount = s.readCount + packetCount (fun op => op == .read) ds ∧
    r.2.writeCount = s.writeCount + packetCount (fun op => op == .write) ds ∧
    r.2.windowStart = s.windowStart ∧ r.2.cfg = s.cfg ∧ r.2.fault = s.fault ∧ r.2.pending = s.pending) ∧
  ∀ (cs ds : List (List Byte)) (s : State), s.carry.length ≤ 7 → cs.flatten = ds.flatten →
    pushChunks cs s = pushChunks ds s

/-- R107: the command words of a FEED run as the source's `feed`. Of the machine's steps, the PUSHes drive the events of `feed`, in order, and no
record; the POLL drives the record of `feed`, if any, and no event; and the chunk's bytes and packets count in the window that the POLL
closes. That the PUSHes come first is the spec's own choice (D19). `ChunkBoundariesDoNotMatter` gives the events from the bytes. -/
def Obligations.FeedRunsPushesThenPoll : Prop :=
  ∀ (chunk : List Byte) (now : Time) (rest : List Command) (s : State), configCheck s.cfg = true → s.fault = none →
    s.pending = feedCommands chunk now ++ rest →
    let r := feed chunk now s
    Host.Core.run Sys2Proof.core (chunk.length + 1) s = .next { r.2.2 with pending := rest } ∧
    (∃ outs, stepOutputs (chunk.length + 1) s = some (outs, { r.2.2 with pending := rest }) ∧
      outs.length = chunk.length + 1 ∧
      outputEvents (outs.take chunk.length) = r.1 ∧ outputStats (outs.take chunk.length) = [] ∧
      outs.drop chunk.length = [⟨none, r.2.1⟩]) ∧
    ∀ w, r.2.1 = some w →
      w.totalBytes = s.totalBytes + BitVec.ofNat 64 chunk.length ∧
      w.totalPackets = s.totalPackets + BitVec.ofNat 64 r.1.length

/-- R86: after a RESET the valid events carry `SEQ_BASE`, `SEQ_BASE + 1`, and so on, with none skipped, and, up to a wrap, none twice; an Unknown event carries
none. -/
def Obligations.SequenceNumbersConsecutive : Prop :=
  ∀ (now : Time) (is : List Instr) (s t : State) (outs : List Output), noReset is = true →
    runAll (.reset now :: is) s = some (outs, t) →
    let n := (outputSeqs outs).length
    outputSeqs outs = (List.range n).map (fun k => s.cfg.seqBase + BitVec.ofNat 64 k) ∧
    t.seqNext = s.cfg.seqBase + BitVec.ofNat 64 n ∧
    (n ≤ 2 ^ 64 → (outputSeqs outs).Nodup) ∧
    ∀ o ∈ outs, ∀ e, o.event = some e → (e.seq = none ↔ e.op = .unknown)

/-- R98: without a RESET the windows tile the time axis: each record starts where the one before it ended, and the open window where the last one
ended; and every PUSH and every packet falls in exactly one window. -/
def Obligations.WindowsTileTimeAndTraffic : Prop :=
  ∀ (is : List Instr) (s t : State) (outs : List Output), noReset is = true → runAll is s = some (outs, t) →
    windowsTile s.windowStart (outputStats outs) = some t.windowStart ∧
    ((outputStats outs).map Stats.totalBytes).sum + t.totalBytes =
      s.totalBytes + BitVec.ofNat 64 (pushCount is) ∧
    ((outputStats outs).map Stats.totalPackets).sum + t.totalPackets =
      s.totalPackets + BitVec.ofNat 64 (outs.countP fun o => o.event.isSome)

/-- R101: the block never closes a window by itself: without a POLL no record is driven, and without a RESET either the window's start stays. -/
def Obligations.OnlyPollClosesWindow : Prop :=
  ∀ (is : List Instr) (s t : State) (outs : List Output), noPoll is = true → runAll is s = some (outs, t) →
    outputStats outs = [] ∧ (noReset is = true → t.windowStart = s.windowStart)

/-- R40, R100, R118: no traffic stops the block: any list of transactions without a POLL runs to its end with no fault. -/
def Obligations.TrafficNeverStopsTheBlock : Prop :=
  ∀ (is : List Instr) (s : State), configCheck s.cfg = true → s.fault = none → noPoll is = true →
    ∃ outs t, runAll is s = some (outs, t) ∧ outs.length = is.length ∧ t.fault = none

/-- R95: in every statistics record a POLL drives, the elapsed ticks are at least the window duration, which is at least 1. -/
def Obligations.RecordSpansWindow : Prop :=
  ∀ (now : Time) (s t : State) (r : Stats), configCheck s.cfg = true → exec (.poll now) s = .next t →
    t.stats = some r → r.windowStart.toNat ≤ r.windowEnd.toNat ∧ s.cfg.windowTicks.toNat ≤ elapsedTicks r ∧
      1 ≤ s.cfg.windowTicks.toNat

/-- R96: the derived metrics are the exact rationals of the rule; with no valid packet the mean is 0. -/
def Obligations.DerivedMetrics : Prop :=
  ∀ (tps : Nat) (r : Stats), 0 < tps → 0 < elapsedTicks r →
    throughputMBps tps r * ((elapsedTicks r : Rat) * 1048576) = (r.totalBytes.toNat : Rat) * (tps : Rat) ∧
    (r.validPackets ≠ 0 →
      meanInterEventUs tps r * ((r.validPackets.toNat : Rat) * (tps : Rat)) = (elapsedTicks r : Rat) * 1000000) ∧
    (r.validPackets = 0 → meanInterEventUs tps r = 0)

/-- R97: every window with no PUSH closes with an all-zero record, whose metrics are both 0: a window that a RESET opens, one that a closing POLL
opens, and the one open at construction; in it stand NOPs and POLLs that are not due, then a due POLL. -/
def Obligations.EmptyWindowReportsZero : Prop :=
  ∀ (now0 now : Time) (is : List Instr) (s t : State) (outs : List Output),
    (∀ i ∈ is, i = .nop ∨ ∃ u, i = .poll u ∧ u.toNat < now0.toNat + s.cfg.windowTicks.toNat) →
    now0.toNat + s.cfg.windowTicks.toNat ≤ now.toNat →
    (runAll (.reset now0 :: is ++ [.poll now]) s = some (outs, t) ∨
      (s.windowStart.toNat + s.cfg.windowTicks.toNat ≤ now0.toNat ∧
        runAll (.poll now0 :: is ++ [.poll now]) s = some (outs, t)) ∨
      (construct s.cfg now0 = .ok s ∧ runAll (is ++ [.poll now]) s = some (outs, t))) →
    t.stats = some ⟨now0, now, 0, 0, 0, 0, 0⟩ ∧
      throughputMBps s.cfg.ticksPerSecond ⟨now0, now, 0, 0, 0, 0, 0⟩ = 0 ∧
      meanInterEventUs s.cfg.ticksPerSecond ⟨now0, now, 0, 0, 0, 0, 0⟩ = 0

/-! ### The packet classes on the PUSH that completes them -/

/-- R76, R77, R78: the strobe bits `P[33:32]` of the 8 bytes select the class of a completed packet, as the mask and match of its opcode row
do. A WRITE or READ packet takes the next sequence number, sets the run flag and counts as a valid packet and as a write or a read; an UNKNOWN
packet takes none, clears the run flag and counts toward the total only. Each event carries the decoded address and data, and none raises anything. The
last four clauses are the rules' examples and the corner case of R77. -/
def Obligations.PacketClassesRunByPush : Prop :=
  (∀ (b : Byte) (s : State), s.cfg = Config.hw → s.carry.length = 7 →
    let P := packetWord (s.carry ++ [b])
    let a := addrOf Config.hw (regA P)
    let d := dataOf Config.hw (regA P) (regB P)
    ∃ t, exec (.push b) s = .next t ∧ t.fault = s.fault ∧ t.totalPackets = s.totalPackets + 1 ∧
      (P.getLsbD 32 = false →
        P &&& 0x0000000100000000 = 0x0000000000000000 ∧
        t.event = some ⟨.write, some s.seqNext, a, d⟩ ∧ t.seqNext = s.seqNext + 1 ∧ t.runActive = true ∧
        t.validPackets = s.validPackets + 1 ∧ t.writeCount = s.writeCount + 1 ∧ t.readCount = s.readCount) ∧
      (P.getLsbD 32 = true → P.getLsbD 33 = false →
        P &&& 0x0000000300000000 = 0x0000000100000000 ∧
        t.event = some ⟨.read, some s.seqNext, a, d⟩ ∧ t.seqNext = s.seqNext + 1 ∧ t.runActive = true ∧
        t.validPackets = s.validPackets + 1 ∧ t.readCount = s.readCount + 1 ∧ t.writeCount = s.writeCount) ∧
      (P.getLsbD 32 = true → P.getLsbD 33 = true →
        P &&& 0x0000000300000000 = 0x0000000300000000 ∧
        t.event = some ⟨.unknown, none, a, d⟩ ∧ t.seqNext = s.seqNext ∧ t.runActive = false ∧
        t.validPackets = s.validPackets ∧ t.writeCount = s.writeCount ∧ t.readCount = s.readCount)) ∧
  decodePacket Config.hw (pktWord 0x00000008 0x00000000) = ⟨.write, 1, 0⟩ ∧
  decodePacket Config.hw (pktWord 0x00000004 0x00000001) = ⟨.read, 0, 1⟩ ∧
  (∀ a : Word, (decodePacket Config.hw (pktWord a 0x00000005)).op = .read ∧
    (decodePacket Config.hw (pktWord a 0x00000005)).data.getLsbD 0 = true) ∧
  decodePacket Config.hw (pktWord 0xFFFFFFFF 0xFFFFFFFF) = ⟨.unknown, 8191, 255⟩
end

