-- ==== Sys2Proof/Laws/State.lean ====
section
/-!
SUPPORT. Laws/State.lean: one lemma for each field of the state and each named update, so that no later proof unfolds a
record update.
-/

namespace Sys2Proof.Machine

/-! ### quiet -/

@[simp] theorem quiet_cfg (s : State) : (quiet s).cfg = s.cfg := rfl
@[simp] theorem quiet_carry (s : State) : (quiet s).carry = s.carry := rfl
@[simp] theorem quiet_runActive (s : State) : (quiet s).runActive = s.runActive := rfl
@[simp] theorem quiet_seqNext (s : State) : (quiet s).seqNext = s.seqNext := rfl
@[simp] theorem quiet_windowStart (s : State) : (quiet s).windowStart = s.windowStart := rfl
@[simp] theorem quiet_totalBytes (s : State) : (quiet s).totalBytes = s.totalBytes := rfl
@[simp] theorem quiet_totalPackets (s : State) : (quiet s).totalPackets = s.totalPackets := rfl
@[simp] theorem quiet_validPackets (s : State) : (quiet s).validPackets = s.validPackets := rfl
@[simp] theorem quiet_readCount (s : State) : (quiet s).readCount = s.readCount := rfl
@[simp] theorem quiet_writeCount (s : State) : (quiet s).writeCount = s.writeCount := rfl
@[simp] theorem quiet_fault (s : State) : (quiet s).fault = s.fault := rfl
@[simp] theorem quiet_event (s : State) : (quiet s).event = none := rfl
@[simp] theorem quiet_stats (s : State) : (quiet s).stats = none := rfl
@[simp] theorem quiet_pending (s : State) : (quiet s).pending = s.pending := rfl

/-! ### countByte -/

@[simp] theorem countByte_cfg (s : State) : (countByte s).cfg = s.cfg := rfl
@[simp] theorem countByte_carry (s : State) : (countByte s).carry = s.carry := rfl
@[simp] theorem countByte_runActive (s : State) : (countByte s).runActive = s.runActive := rfl
@[simp] theorem countByte_seqNext (s : State) : (countByte s).seqNext = s.seqNext := rfl
@[simp] theorem countByte_windowStart (s : State) : (countByte s).windowStart = s.windowStart := rfl
@[simp] theorem countByte_totalBytes (s : State) : (countByte s).totalBytes = s.totalBytes + 1 := rfl
@[simp] theorem countByte_totalPackets (s : State) : (countByte s).totalPackets = s.totalPackets := rfl
@[simp] theorem countByte_validPackets (s : State) : (countByte s).validPackets = s.validPackets := rfl
@[simp] theorem countByte_readCount (s : State) : (countByte s).readCount = s.readCount := rfl
@[simp] theorem countByte_writeCount (s : State) : (countByte s).writeCount = s.writeCount := rfl
@[simp] theorem countByte_fault (s : State) : (countByte s).fault = s.fault := rfl
@[simp] theorem countByte_event (s : State) : (countByte s).event = s.event := rfl
@[simp] theorem countByte_stats (s : State) : (countByte s).stats = s.stats := rfl
@[simp] theorem countByte_pending (s : State) : (countByte s).pending = s.pending := rfl

/-! ### setCarry -/

@[simp] theorem setCarry_cfg (bytes : List Byte) (s : State) : (setCarry bytes s).cfg = s.cfg := rfl
@[simp] theorem setCarry_carry (bytes : List Byte) (s : State) : (setCarry bytes s).carry = bytes := rfl
@[simp] theorem setCarry_runActive (bytes : List Byte) (s : State) : (setCarry bytes s).runActive = s.runActive := rfl
@[simp] theorem setCarry_seqNext (bytes : List Byte) (s : State) : (setCarry bytes s).seqNext = s.seqNext := rfl
@[simp] theorem setCarry_windowStart (bytes : List Byte) (s : State) : (setCarry bytes s).windowStart = s.windowStart := rfl
@[simp] theorem setCarry_totalBytes (bytes : List Byte) (s : State) : (setCarry bytes s).totalBytes = s.totalBytes := rfl
@[simp] theorem setCarry_totalPackets (bytes : List Byte) (s : State) : (setCarry bytes s).totalPackets = s.totalPackets := rfl
@[simp] theorem setCarry_validPackets (bytes : List Byte) (s : State) : (setCarry bytes s).validPackets = s.validPackets := rfl
@[simp] theorem setCarry_readCount (bytes : List Byte) (s : State) : (setCarry bytes s).readCount = s.readCount := rfl
@[simp] theorem setCarry_writeCount (bytes : List Byte) (s : State) : (setCarry bytes s).writeCount = s.writeCount := rfl
@[simp] theorem setCarry_fault (bytes : List Byte) (s : State) : (setCarry bytes s).fault = s.fault := rfl
@[simp] theorem setCarry_event (bytes : List Byte) (s : State) : (setCarry bytes s).event = s.event := rfl
@[simp] theorem setCarry_stats (bytes : List Byte) (s : State) : (setCarry bytes s).stats = s.stats := rfl
@[simp] theorem setCarry_pending (bytes : List Byte) (s : State) : (setCarry bytes s).pending = s.pending := rfl

/-! ### stepRun -/

@[simp] theorem stepRun_cfg (op : Op) (s : State) : (stepRun op s).cfg = s.cfg := rfl
@[simp] theorem stepRun_carry (op : Op) (s : State) : (stepRun op s).carry = s.carry := rfl
@[simp] theorem stepRun_runActive (op : Op) (s : State) : (stepRun op s).runActive = runFsm op := rfl
@[simp] theorem stepRun_seqNext (op : Op) (s : State) : (stepRun op s).seqNext = s.seqNext := rfl
@[simp] theorem stepRun_windowStart (op : Op) (s : State) : (stepRun op s).windowStart = s.windowStart := rfl
@[simp] theorem stepRun_totalBytes (op : Op) (s : State) : (stepRun op s).totalBytes = s.totalBytes := rfl
@[simp] theorem stepRun_totalPackets (op : Op) (s : State) : (stepRun op s).totalPackets = s.totalPackets := rfl
@[simp] theorem stepRun_validPackets (op : Op) (s : State) : (stepRun op s).validPackets = s.validPackets := rfl
@[simp] theorem stepRun_readCount (op : Op) (s : State) : (stepRun op s).readCount = s.readCount := rfl
@[simp] theorem stepRun_writeCount (op : Op) (s : State) : (stepRun op s).writeCount = s.writeCount := rfl
@[simp] theorem stepRun_fault (op : Op) (s : State) : (stepRun op s).fault = s.fault := rfl
@[simp] theorem stepRun_event (op : Op) (s : State) : (stepRun op s).event = s.event := rfl
@[simp] theorem stepRun_stats (op : Op) (s : State) : (stepRun op s).stats = s.stats := rfl
@[simp] theorem stepRun_pending (op : Op) (s : State) : (stepRun op s).pending = s.pending := rfl

/-! ### emitEvent -/

@[simp] theorem emitEvent_cfg (e : Event) (s : State) : (emitEvent e s).cfg = s.cfg := rfl
@[simp] theorem emitEvent_carry (e : Event) (s : State) : (emitEvent e s).carry = s.carry := rfl
@[simp] theorem emitEvent_runActive (e : Event) (s : State) : (emitEvent e s).runActive = s.runActive := rfl
@[simp] theorem emitEvent_seqNext (e : Event) (s : State) : (emitEvent e s).seqNext = s.seqNext := rfl
@[simp] theorem emitEvent_windowStart (e : Event) (s : State) : (emitEvent e s).windowStart = s.windowStart := rfl
@[simp] theorem emitEvent_totalBytes (e : Event) (s : State) : (emitEvent e s).totalBytes = s.totalBytes := rfl
@[simp] theorem emitEvent_totalPackets (e : Event) (s : State) : (emitEvent e s).totalPackets = s.totalPackets := rfl
@[simp] theorem emitEvent_validPackets (e : Event) (s : State) : (emitEvent e s).validPackets = s.validPackets := rfl
@[simp] theorem emitEvent_readCount (e : Event) (s : State) : (emitEvent e s).readCount = s.readCount := rfl
@[simp] theorem emitEvent_writeCount (e : Event) (s : State) : (emitEvent e s).writeCount = s.writeCount := rfl
@[simp] theorem emitEvent_fault (e : Event) (s : State) : (emitEvent e s).fault = s.fault := rfl
@[simp] theorem emitEvent_event (e : Event) (s : State) : (emitEvent e s).event = some e := rfl
@[simp] theorem emitEvent_stats (e : Event) (s : State) : (emitEvent e s).stats = s.stats := rfl
@[simp] theorem emitEvent_pending (e : Event) (s : State) : (emitEvent e s).pending = s.pending := rfl

/-! ### emitStats -/

@[simp] theorem emitStats_cfg (r : Stats) (s : State) : (emitStats r s).cfg = s.cfg := rfl
@[simp] theorem emitStats_carry (r : Stats) (s : State) : (emitStats r s).carry = s.carry := rfl
@[simp] theorem emitStats_runActive (r : Stats) (s : State) : (emitStats r s).runActive = s.runActive := rfl
@[simp] theorem emitStats_seqNext (r : Stats) (s : State) : (emitStats r s).seqNext = s.seqNext := rfl
@[simp] theorem emitStats_windowStart (r : Stats) (s : State) : (emitStats r s).windowStart = s.windowStart := rfl
@[simp] theorem emitStats_totalBytes (r : Stats) (s : State) : (emitStats r s).totalBytes = s.totalBytes := rfl
@[simp] theorem emitStats_totalPackets (r : Stats) (s : State) : (emitStats r s).totalPackets = s.totalPackets := rfl
@[simp] theorem emitStats_validPackets (r : Stats) (s : State) : (emitStats r s).validPackets = s.validPackets := rfl
@[simp] theorem emitStats_readCount (r : Stats) (s : State) : (emitStats r s).readCount = s.readCount := rfl
@[simp] theorem emitStats_writeCount (r : Stats) (s : State) : (emitStats r s).writeCount = s.writeCount := rfl
@[simp] theorem emitStats_fault (r : Stats) (s : State) : (emitStats r s).fault = s.fault := rfl
@[simp] theorem emitStats_event (r : Stats) (s : State) : (emitStats r s).event = s.event := rfl
@[simp] theorem emitStats_stats (r : Stats) (s : State) : (emitStats r s).stats = some r := rfl
@[simp] theorem emitStats_pending (r : Stats) (s : State) : (emitStats r s).pending = s.pending := rfl

/-! ### openWindow -/

@[simp] theorem openWindow_cfg (now : Time) (s : State) : (openWindow now s).cfg = s.cfg := rfl
@[simp] theorem openWindow_carry (now : Time) (s : State) : (openWindow now s).carry = s.carry := rfl
@[simp] theorem openWindow_runActive (now : Time) (s : State) : (openWindow now s).runActive = s.runActive := rfl
@[simp] theorem openWindow_seqNext (now : Time) (s : State) : (openWindow now s).seqNext = s.seqNext := rfl
@[simp] theorem openWindow_windowStart (now : Time) (s : State) : (openWindow now s).windowStart = now := rfl
@[simp] theorem openWindow_totalBytes (now : Time) (s : State) : (openWindow now s).totalBytes = 0 := rfl
@[simp] theorem openWindow_totalPackets (now : Time) (s : State) : (openWindow now s).totalPackets = 0 := rfl
@[simp] theorem openWindow_validPackets (now : Time) (s : State) : (openWindow now s).validPackets = 0 := rfl
@[simp] theorem openWindow_readCount (now : Time) (s : State) : (openWindow now s).readCount = 0 := rfl
@[simp] theorem openWindow_writeCount (now : Time) (s : State) : (openWindow now s).writeCount = 0 := rfl
@[simp] theorem openWindow_fault (now : Time) (s : State) : (openWindow now s).fault = s.fault := rfl
@[simp] theorem openWindow_event (now : Time) (s : State) : (openWindow now s).event = s.event := rfl
@[simp] theorem openWindow_stats (now : Time) (s : State) : (openWindow now s).stats = s.stats := rfl
@[simp] theorem openWindow_pending (now : Time) (s : State) : (openWindow now s).pending = s.pending := rfl

/-! ### raiseFault -/

@[simp] theorem raiseFault_cfg (r : Fault) (s : State) : (raiseFault r s).cfg = s.cfg := rfl
@[simp] theorem raiseFault_carry (r : Fault) (s : State) : (raiseFault r s).carry = s.carry := rfl
@[simp] theorem raiseFault_runActive (r : Fault) (s : State) : (raiseFault r s).runActive = s.runActive := rfl
@[simp] theorem raiseFault_seqNext (r : Fault) (s : State) : (raiseFault r s).seqNext = s.seqNext := rfl
@[simp] theorem raiseFault_windowStart (r : Fault) (s : State) : (raiseFault r s).windowStart = s.windowStart := rfl
@[simp] theorem raiseFault_totalBytes (r : Fault) (s : State) : (raiseFault r s).totalBytes = s.totalBytes := rfl
@[simp] theorem raiseFault_totalPackets (r : Fault) (s : State) : (raiseFault r s).totalPackets = s.totalPackets := rfl
@[simp] theorem raiseFault_validPackets (r : Fault) (s : State) : (raiseFault r s).validPackets = s.validPackets := rfl
@[simp] theorem raiseFault_readCount (r : Fault) (s : State) : (raiseFault r s).readCount = s.readCount := rfl
@[simp] theorem raiseFault_writeCount (r : Fault) (s : State) : (raiseFault r s).writeCount = s.writeCount := rfl
@[simp] theorem raiseFault_fault (r : Fault) (s : State) : (raiseFault r s).fault = some r := rfl
@[simp] theorem raiseFault_event (r : Fault) (s : State) : (raiseFault r s).event = s.event := rfl
@[simp] theorem raiseFault_stats (r : Fault) (s : State) : (raiseFault r s).stats = s.stats := rfl
@[simp] theorem raiseFault_pending (r : Fault) (s : State) : (raiseFault r s).pending = s.pending := rfl

/-! ### resetAt -/

@[simp] theorem resetAt_cfg (now : Time) (s : State) : (resetAt now s).cfg = s.cfg := rfl
@[simp] theorem resetAt_carry (now : Time) (s : State) : (resetAt now s).carry = [] := rfl
@[simp] theorem resetAt_runActive (now : Time) (s : State) : (resetAt now s).runActive = false := rfl
@[simp] theorem resetAt_seqNext (now : Time) (s : State) : (resetAt now s).seqNext = s.cfg.seqBase := rfl
@[simp] theorem resetAt_windowStart (now : Time) (s : State) : (resetAt now s).windowStart = now := rfl
@[simp] theorem resetAt_totalBytes (now : Time) (s : State) : (resetAt now s).totalBytes = 0 := rfl
@[simp] theorem resetAt_totalPackets (now : Time) (s : State) : (resetAt now s).totalPackets = 0 := rfl
@[simp] theorem resetAt_validPackets (now : Time) (s : State) : (resetAt now s).validPackets = 0 := rfl
@[simp] theorem resetAt_readCount (now : Time) (s : State) : (resetAt now s).readCount = 0 := rfl
@[simp] theorem resetAt_writeCount (now : Time) (s : State) : (resetAt now s).writeCount = 0 := rfl
@[simp] theorem resetAt_fault (now : Time) (s : State) : (resetAt now s).fault = s.fault := rfl
@[simp] theorem resetAt_event (now : Time) (s : State) : (resetAt now s).event = none := rfl
@[simp] theorem resetAt_stats (now : Time) (s : State) : (resetAt now s).stats = none := rfl
@[simp] theorem resetAt_pending (now : Time) (s : State) : (resetAt now s).pending = s.pending := rfl

/-! ### issueNext -/

@[simp] theorem issueNext_cfg (C : Command) (s : State) : (issueNext C s).cfg = s.cfg := rfl
@[simp] theorem issueNext_carry (C : Command) (s : State) : (issueNext C s).carry = s.carry := rfl
@[simp] theorem issueNext_runActive (C : Command) (s : State) : (issueNext C s).runActive = s.runActive := rfl
@[simp] theorem issueNext_seqNext (C : Command) (s : State) : (issueNext C s).seqNext = s.seqNext := rfl
@[simp] theorem issueNext_windowStart (C : Command) (s : State) : (issueNext C s).windowStart = s.windowStart := rfl
@[simp] theorem issueNext_totalBytes (C : Command) (s : State) : (issueNext C s).totalBytes = s.totalBytes := rfl
@[simp] theorem issueNext_totalPackets (C : Command) (s : State) : (issueNext C s).totalPackets = s.totalPackets := rfl
@[simp] theorem issueNext_validPackets (C : Command) (s : State) : (issueNext C s).validPackets = s.validPackets := rfl
@[simp] theorem issueNext_readCount (C : Command) (s : State) : (issueNext C s).readCount = s.readCount := rfl
@[simp] theorem issueNext_writeCount (C : Command) (s : State) : (issueNext C s).writeCount = s.writeCount := rfl
@[simp] theorem issueNext_fault (C : Command) (s : State) : (issueNext C s).fault = s.fault := rfl
@[simp] theorem issueNext_event (C : Command) (s : State) : (issueNext C s).event = s.event := rfl
@[simp] theorem issueNext_stats (C : Command) (s : State) : (issueNext C s).stats = s.stats := rfl
@[simp] theorem issueNext_pending (C : Command) (s : State) : (issueNext C s).pending = C :: s.pending := rfl

/-! ### advanceSeq -/

@[simp] theorem advanceSeq_cfg (op : Op) (s : State) : (advanceSeq op s).cfg = s.cfg := by cases op <;> rfl
@[simp] theorem advanceSeq_carry (op : Op) (s : State) : (advanceSeq op s).carry = s.carry := by cases op <;> rfl
@[simp] theorem advanceSeq_runActive (op : Op) (s : State) : (advanceSeq op s).runActive = s.runActive := by cases op <;> rfl
@[simp] theorem advanceSeq_seqNext (op : Op) (s : State) :
    (advanceSeq op s).seqNext = if opValid op then s.seqNext + 1 else s.seqNext := by
  cases op <;> rfl
@[simp] theorem advanceSeq_windowStart (op : Op) (s : State) : (advanceSeq op s).windowStart = s.windowStart := by cases op <;> rfl
@[simp] theorem advanceSeq_totalBytes (op : Op) (s : State) : (advanceSeq op s).totalBytes = s.totalBytes := by cases op <;> rfl
@[simp] theorem advanceSeq_totalPackets (op : Op) (s : State) : (advanceSeq op s).totalPackets = s.totalPackets := by cases op <;> rfl
@[simp] theorem advanceSeq_validPackets (op : Op) (s : State) : (advanceSeq op s).validPackets = s.validPackets := by cases op <;> rfl
@[simp] theorem advanceSeq_readCount (op : Op) (s : State) : (advanceSeq op s).readCount = s.readCount := by cases op <;> rfl
@[simp] theorem advanceSeq_writeCount (op : Op) (s : State) : (advanceSeq op s).writeCount = s.writeCount := by cases op <;> rfl
@[simp] theorem advanceSeq_fault (op : Op) (s : State) : (advanceSeq op s).fault = s.fault := by cases op <;> rfl
@[simp] theorem advanceSeq_event (op : Op) (s : State) : (advanceSeq op s).event = s.event := by cases op <;> rfl
@[simp] theorem advanceSeq_stats (op : Op) (s : State) : (advanceSeq op s).stats = s.stats := by cases op <;> rfl
@[simp] theorem advanceSeq_pending (op : Op) (s : State) : (advanceSeq op s).pending = s.pending := by cases op <;> rfl

/-! ### recordPacket -/

@[simp] theorem recordPacket_cfg (op : Op) (s : State) :
    (recordPacket op s).cfg = s.cfg := by cases op <;> rfl
@[simp] theorem recordPacket_carry (op : Op) (s : State) :
    (recordPacket op s).carry = s.carry := by cases op <;> rfl
@[simp] theorem recordPacket_runActive (op : Op) (s : State) :
    (recordPacket op s).runActive = s.runActive := by cases op <;> rfl
@[simp] theorem recordPacket_seqNext (op : Op) (s : State) :
    (recordPacket op s).seqNext = s.seqNext := by cases op <;> rfl
@[simp] theorem recordPacket_windowStart (op : Op) (s : State) :
    (recordPacket op s).windowStart = s.windowStart := by cases op <;> rfl
@[simp] theorem recordPacket_totalBytes (op : Op) (s : State) :
    (recordPacket op s).totalBytes = s.totalBytes := by cases op <;> rfl
@[simp] theorem recordPacket_totalPackets (op : Op) (s : State) :
    (recordPacket op s).totalPackets = s.totalPackets + 1 := by cases op <;> rfl
@[simp] theorem recordPacket_validPackets (op : Op) (s : State) :
    (recordPacket op s).validPackets = if opValid op then s.validPackets + 1 else s.validPackets := by cases op <;> rfl
@[simp] theorem recordPacket_readCount (op : Op) (s : State) :
    (recordPacket op s).readCount = if op = .read then s.readCount + 1 else s.readCount := by cases op <;> rfl
@[simp] theorem recordPacket_writeCount (op : Op) (s : State) :
    (recordPacket op s).writeCount = if op = .write then s.writeCount + 1 else s.writeCount := by cases op <;> rfl
@[simp] theorem recordPacket_fault (op : Op) (s : State) :
    (recordPacket op s).fault = s.fault := by cases op <;> rfl
@[simp] theorem recordPacket_event (op : Op) (s : State) :
    (recordPacket op s).event = s.event := by cases op <;> rfl
@[simp] theorem recordPacket_stats (op : Op) (s : State) :
    (recordPacket op s).stats = s.stats := by cases op <;> rfl
@[simp] theorem recordPacket_pending (op : Op) (s : State) :
    (recordPacket op s).pending = s.pending := by cases op <;> rfl

/-! ### completePacket -/

@[simp] theorem runFsm_eq (op : Op) : runFsm op = opValid op := by
  cases op <;> rfl

@[simp] theorem completePacket_cfg (d : DecodedPacket) (s : State) :
    (completePacket d s).cfg = s.cfg := by simp [completePacket]
@[simp] theorem completePacket_carry (d : DecodedPacket) (s : State) :
    (completePacket d s).carry = s.carry := by simp [completePacket]
@[simp] theorem completePacket_runActive (d : DecodedPacket) (s : State) :
    (completePacket d s).runActive = opValid d.op := by simp [completePacket]
@[simp] theorem completePacket_seqNext (d : DecodedPacket) (s : State) :
    (completePacket d s).seqNext = if opValid d.op then s.seqNext + 1 else s.seqNext := by simp [completePacket]
@[simp] theorem completePacket_windowStart (d : DecodedPacket) (s : State) :
    (completePacket d s).windowStart = s.windowStart := by simp [completePacket]
@[simp] theorem completePacket_totalBytes (d : DecodedPacket) (s : State) :
    (completePacket d s).totalBytes = s.totalBytes := by simp [completePacket]
@[simp] theorem completePacket_totalPackets (d : DecodedPacket) (s : State) :
    (completePacket d s).totalPackets = s.totalPackets + 1 := by simp [completePacket]
@[simp] theorem completePacket_validPackets (d : DecodedPacket) (s : State) :
    (completePacket d s).validPackets = if opValid d.op then s.validPackets + 1 else s.validPackets := by simp [completePacket]
@[simp] theorem completePacket_readCount (d : DecodedPacket) (s : State) :
    (completePacket d s).readCount = if d.op = .read then s.readCount + 1 else s.readCount := by simp [completePacket]
@[simp] theorem completePacket_writeCount (d : DecodedPacket) (s : State) :
    (completePacket d s).writeCount = if d.op = .write then s.writeCount + 1 else s.writeCount := by simp [completePacket]
@[simp] theorem completePacket_fault (d : DecodedPacket) (s : State) :
    (completePacket d s).fault = s.fault := by simp [completePacket]
@[simp] theorem completePacket_event (d : DecodedPacket) (s : State) :
    (completePacket d s).event = some ⟨d.op, seqFor d.op s, d.address, d.data⟩ := by simp [completePacket]
@[simp] theorem completePacket_stats (d : DecodedPacket) (s : State) :
    (completePacket d s).stats = s.stats := by simp [completePacket]
@[simp] theorem completePacket_pending (d : DecodedPacket) (s : State) :
    (completePacket d s).pending = s.pending := by simp [completePacket]

/-! ### closeWindow -/

@[simp] theorem closeWindow_cfg (now : Time) (s : State) : (closeWindow now s).cfg = s.cfg := rfl
@[simp] theorem closeWindow_carry (now : Time) (s : State) : (closeWindow now s).carry = s.carry := rfl
@[simp] theorem closeWindow_runActive (now : Time) (s : State) : (closeWindow now s).runActive = s.runActive := rfl
@[simp] theorem closeWindow_seqNext (now : Time) (s : State) : (closeWindow now s).seqNext = s.seqNext := rfl
@[simp] theorem closeWindow_windowStart (now : Time) (s : State) : (closeWindow now s).windowStart = now := rfl
@[simp] theorem closeWindow_totalBytes (now : Time) (s : State) : (closeWindow now s).totalBytes = 0 := rfl
@[simp] theorem closeWindow_totalPackets (now : Time) (s : State) : (closeWindow now s).totalPackets = 0 := rfl
@[simp] theorem closeWindow_validPackets (now : Time) (s : State) : (closeWindow now s).validPackets = 0 := rfl
@[simp] theorem closeWindow_readCount (now : Time) (s : State) : (closeWindow now s).readCount = 0 := rfl
@[simp] theorem closeWindow_writeCount (now : Time) (s : State) : (closeWindow now s).writeCount = 0 := rfl
@[simp] theorem closeWindow_fault (now : Time) (s : State) : (closeWindow now s).fault = s.fault := rfl
@[simp] theorem closeWindow_event (now : Time) (s : State) : (closeWindow now s).event = s.event := rfl
@[simp] theorem closeWindow_stats (now : Time) (s : State) : (closeWindow now s).stats = some (windowRecord now s) := rfl
@[simp] theorem closeWindow_pending (now : Time) (s : State) : (closeWindow now s).pending = s.pending := rfl

end Sys2Proof.Machine
end

