-- ==== Sys2Proof/Laws/Ops.lean ====
section
/-!
SUPPORT. Laws/Ops.lean: for each shared operation, everything it can do, said once; later proofs cite these lemmas instead
of unfolding the operation.
-/

namespace Sys2Proof.Machine

theorem acceptByte_short (b : Byte) {carry : List Byte} (h : carry.length < 7) :
    acceptByte b carry = (carry ++ [b], none) := if_pos h

theorem acceptByte_full (b : Byte) {carry : List Byte} (h : 7 ≤ carry.length) :
    acceptByte b carry = ([], some (carry ++ [b])) := if_neg (by omega)

/-- A PUSH either buffers its byte or completes a packet; nothing else. -/
theorem pushByte_cases (b : Byte) (s : State) :
    (s.carry.length < 7 ∧ pushByte b s = setCarry (s.carry ++ [b]) (countByte (quiet s))) ∨
    (7 ≤ s.carry.length ∧ pushByte b s =
      completePacket (decodePacket s.cfg (packetWord (s.carry ++ [b]))) (setCarry [] (countByte (quiet s)))) := by
  by_cases h : s.carry.length < 7
  · exact .inl ⟨h, by simp [pushByte, acceptByte_short b h]⟩
  · exact .inr ⟨by omega, by simp [pushByte, acceptByte_full b (Nat.le_of_not_lt h)]⟩

/-- A POLL raises the fault, closes the window, or does nothing; nothing else. -/
theorem pollAt_cases (now : Time) (s : State) :
    (now.toNat < s.windowStart.toNat ∧
      pollAt now s = raiseFault (.timeRegression now s.windowStart) (quiet s)) ∨
    (s.windowStart.toNat ≤ now.toNat ∧ windowDue now s = true ∧ pollAt now s = closeWindow now (quiet s)) ∨
    (s.windowStart.toNat ≤ now.toNat ∧ windowDue now s = false ∧ pollAt now s = quiet s) := by
  by_cases h : now.toNat < s.windowStart.toNat
  · exact .inl ⟨h, by simp [pollAt, h]⟩
  · by_cases d : windowDue now s = true
    · exact .inr (.inl ⟨by omega, d, by simp [pollAt, h, d]⟩)
    · exact .inr (.inr ⟨by omega, by simpa using d, by simp [pollAt, h, d]⟩)

/-- A guarded step that answers a next state is that of a legal, unfaulted state. -/
theorem guardStep_next {s t : State} {act : Host.Outcome State Fault Refusal} (h : guardStep s act = .next t) :
    configCheck s.cfg = true ∧ s.fault = none ∧ act = .next t := by
  unfold guardStep at h
  split at h
  · split at h
    · cases h
    · exact ⟨‹_›, ‹_›, h⟩
  · cases h

theorem guardStep_open {s : State} (legal : configCheck s.cfg = true) (clear : s.fault = none)
    (act : Host.Outcome State Fault Refusal) : guardStep s act = act := by
  simp [guardStep, legal, clear]

/-- Everything a step that answers a next state can be: the idle step, or one decoded transaction. -/
theorem step_cases {s t : State} (h : step s = .next t) :
    configCheck s.cfg = true ∧ s.fault = none ∧
    ((s.pending = [] ∧ t = quiet s) ∨
     ∃ C rest, s.pending = C :: rest ∧ exec (decodeCommand C) { s with pending := rest } = .next t) := by
  obtain ⟨legal, clear, act⟩ := guardStep_next h
  refine ⟨legal, clear, ?_⟩
  cases hp : s.pending with
  | nil =>
    simp only [takeTransaction, hp] at act
    injection act with e
    exact .inl ⟨rfl, e.symm⟩
  | cons C rest =>
    simp only [takeTransaction, hp] at act
    exact .inr ⟨C, rest, rfl, act⟩

/-- A command word decodes to a transaction, never to a packet class by itself. -/
theorem decodeCommand_cases (C : Command) :
    decodeCommand C = .nop ∨ (∃ b, decodeCommand C = .push b) ∨ (∃ now, decodeCommand C = .poll now) ∨
      ∃ now, decodeCommand C = .reset now := by
  unfold decodeCommand
  split
  · exact .inl rfl
  · exact .inr (.inl ⟨_, rfl⟩)
  · exact .inr (.inr (.inl ⟨_, rfl⟩))
  · exact .inr (.inr (.inr ⟨_, rfl⟩))

end Sys2Proof.Machine
end

