-- ==== Sys2Proof/Laws/PerInstr.lean ====
section
/-!
SUPPORT. Laws/PerInstr.lean: for every instruction, the word the encoder writes for it belongs to its row of
spec/opcode_table.json: it has the row's format, and masked it is the row's match value (spec/30_encoding.md R54, R59).
-/

namespace Sys2Proof.Laws.EncodedInItsRow

open Sys2Proof.Machine

/-- The encoder's word of `i` belongs to the opcode row of `i`. -/
def Statement (i : Instr) : Prop := (opcodeRow i).selects (encode Config.hw i) = true

/-- No data bit of this hardware's table reaches the strobe bits. -/
theorem deposit_data_low (d : Word) : (deposit d Config.hw.dataPos).extractLsb' 0 2 = 0#2 := by
  apply BitVec.eq_of_getLsbD_eq
  intro k hk
  have : k = 0 ∨ k = 1 := by omega
  rcases this with rfl | rfl <;> simp [Config.hw, deposit, bitWord]

/-- The bits of a packet word under a mask of its two strobe bits. -/
theorem strobe_mask (ra rb : Word) (m : BitVec 2) :
    pktWord ra rb &&& (0#30 ++ m ++ 0#32) = 0#30 ++ (rb.extractLsb' 0 2 &&& m) ++ 0#32 := by
  apply BitVec.eq_of_getLsbD_eq
  intro i hi
  simp only [pktWord, BitVec.getLsbD_and, BitVec.getLsbD_append, BitVec.getLsbD_extractLsb']
  by_cases h : i < 32
  · simp [h]
  · by_cases h2 : i - 32 < 2 <;> simp [h, h2]

/-- Under the mask of its row, an encoded packet shows the strobe bits of its class. -/
theorem encodePacket_mask (op : Op) (a : Addr) (d : Byte) (m : BitVec 2) :
    encodePacket Config.hw op a d &&& (0#30 ++ m ++ 0#32) =
      0#30 ++ ((strobes Config.hw op).extractLsb' 0 2 &&& m) ++ 0#32 := by
  rw [encodePacket, strobe_mask, BitVec.extractLsb'_or, deposit_data_low, BitVec.or_zero]

theorem pktWrite (a : Addr) (d : Byte) : Statement (.pktWrite a d) :=
  decide_eq_true (encodePacket_mask .write a d 1#2)

theorem pktRead (a : Addr) (d : Byte) : Statement (.pktRead a d) :=
  decide_eq_true (encodePacket_mask .read a d 3#2)

theorem pktUnknown (a : Addr) (d : Byte) : Statement (.pktUnknown a d) :=
  decide_eq_true (encodePacket_mask .unknown a d 3#2)

/-- The mask of a command row keeps the kind and clears the payload. -/
theorem kind_mask (k : BitVec 2) (p : BitVec 64) : (k ++ p : Command) &&& (3#2 ++ 0#64) = k ++ 0#64 := by
  apply BitVec.eq_of_getLsbD_eq
  intro i hi
  simp only [BitVec.getLsbD_and, BitVec.getLsbD_append]
  by_cases h : i < 64
  · simp [h]
  · have : i - 64 = 0 ∨ i - 64 = 1 := by omega
    rcases this with e | e <;> simp [h, e]

theorem nop : Statement .nop := decide_eq_true (kind_mask 0#2 0#64)

theorem push (b : Byte) : Statement (.push b) := decide_eq_true (kind_mask 1#2 _)

theorem poll (now : Time) : Statement (.poll now) := decide_eq_true (kind_mask 2#2 now)

theorem reset (now : Time) : Statement (.reset now) := decide_eq_true (kind_mask 3#2 now)

end Sys2Proof.Laws.EncodedInItsRow
end

