-- ==== Sys2Proof/Tests/Slice0.lean ====
section
/-!
SUPPORT. Tests/Slice0.lean: tests whose expected results are the vectors of spec/95_test_vectors.md (named in each comment) or the spec's
encodings, and a witness for the hypotheses of each statement that has some.
-/

namespace Sys2Proof.Tests

open Sys2Proof Sys2Proof.Machine

/-! ### The settings of spec/95_test_vectors.md -/

/-- This hardware's tables, with the vectors' test settings: one tick is 1 µs, the window is 1 second, and a sequence base for the tests. -/
def testCfg : Config :=
  { addrPos := [3, 12, 13, 16, 17, 18, 19, 20, 21, 22, 23, 24, 25]
    dataPos := [2, 28, 29, 16, 12, 11, 10, 3]
    d1Src := 2, weBit := 0, oeBit := 1
    windowTicks := 1000000, ticksPerSecond := 1000000, seqBase := 40 }

/-- The state right after `RESET 1000` under the test settings. -/
def launched : State :=
  { cfg := testCfg, carry := [], runActive := false, seqNext := 40, windowStart := 1000, totalBytes := 0, totalPackets := 0,
    validPackets := 0, readCount := 0, writeCount := 0, fault := none, event := none, stats := none, pending := [] }

/-- The state a meaning leaves, or the state before where it stops: for reading one field of a result. -/
def after (o : Host.Outcome State Fault Refusal) (s : State) : State :=
  match o with
  | .next t => t
  | .fault _ => s
  | .refused _ => s

/-- Which of the three outcomes a step has. -/
def outcomeTag (o : Host.Outcome State Fault Refusal) : Nat :=
  match o with
  | .next _ => 0
  | .fault _ => 1
  | .refused _ => 2

/-! ### WellFormed: a smoke test for each check -/

/-- V-CFG-1, V-CFG-9, V-CFG-10: legal configurations. -/
theorem test_config_legal :
    testCfg.WellFormed ∧
    Config.WellFormed { testCfg with addrPos := [3, 3, 13, 16, 17, 18, 19, 20, 21, 22, 23, 24, 25] } := by decide

/-- V-CFG-2 to V-CFG-8: each condition of R68 refuses its own ill-formed configuration. -/
theorem test_config_conditions_refuse :
    ¬ Config.WellFormed { testCfg with addrPos := [3, 12, 13, 16, 17, 18, 19, 20, 21, 22, 23, 24] } ∧
    ¬ Config.WellFormed { testCfg with dataPos := [2, 28, 29, 16, 12, 11, 10, 3, 4] } ∧
    ¬ Config.WellFormed { testCfg with addrPos := [3, 12, 13, 16, 17, 18, 19, 20, 21, 22, 23, 24, 32] } ∧
    ¬ Config.WellFormed { testCfg with d1Src := 40 } ∧
    ¬ Config.WellFormed { testCfg with oeBit := 0 } ∧
    ¬ Config.WellFormed { testCfg with windowTicks := 0 } ∧
    ¬ Config.WellFormed { testCfg with ticksPerSecond := 0 } := by decide

/-- R65: an operand out of range makes an assembler line ill-formed, and it has no command words. -/
theorem test_asm_line_ill_formed :
    (AsmLine.push 256).wellFormed = false ∧ (AsmLine.poll (2 ^ 64)).wellFormed = false ∧
    (AsmLine.reset (2 ^ 64)).wellFormed = false ∧ (AsmLine.feed [256] 0).wellFormed = false ∧
    (AsmLine.feed [] (2 ^ 64)).wellFormed = false ∧ (AsmLine.packet (2 ^ 32) 0).wellFormed = false ∧
    (AsmLine.packet 0 (2 ^ 32)).wellFormed = false ∧ assembleLine (.push 256) = none := by decide

/-! ### Decoding: words written out from the spec's encodings -/

/-- R54: `P[32] = 0` is WRITE; `P[3]` is address bit 0. V-DEC-1. -/
theorem test_decode_write : decodeTableWord 64 0x0000000000000008 = some (.pktWrite 1 0) := by decide

/-- R54: `P[33:32] = 01` is READ. V-DEC-8: `PKT(0x03572000, 0x10011401)`. -/
theorem test_decode_read : decodeTableWord 64 0x1001140103572000 = some (.pktRead 6844 90) := by decide

/-- R54: `P[33:32] = 11` is UNKNOWN; `P[2]` is the D1 bit. V-DEC-3. -/
theorem test_decode_unknown : decodeTableWord 64 0x0000000300000004 = some (.pktUnknown 0 1) := by decide

/-- V-CMD-1, V-CMD-2: kind 00; the payload is ignored. -/
theorem test_decode_nop :
    decodeTableWord 72 0 = some .nop ∧ decodeTableWord 72 0x0DEADBEEFDEADBEEF = some .nop := by decide

/-- V-CMD-3, V-CMD-4: kind 01; `C[63:8]` is ignored. -/
theorem test_decode_push :
    decodeTableWord 72 0x10000000000000008 = some (.push 8) ∧
    decodeTableWord 72 0x1FFFFFFFFFFFFFF08 = some (.push 8) := by decide

/-- V-CMD-5: kind 10. -/
theorem test_decode_poll : decodeTableWord 72 0x200000000000F4240 = some (.poll 1000000) := by decide

/-- V-CMD-6: kind 11. -/
theorem test_decode_reset : decodeTableWord 72 0x30000000000000032 = some (.reset 50) := by decide

/-- Refused by name: a packet of 7 bytes (U5), a command word of more than 66 bits (R64), a word of no format (R50). -/
theorem test_decode_refuses :
    decodePacketBytes testCfg [1, 2, 3, 4, 5, 6, 7] = .error (.packetLength 7) ∧
    decodeBits testCfg 72 0x40000000000000000 = .error (.wordTooWide 72 0x40000000000000000) ∧
    decodeBits testCfg 80 0 = .error (.noSuchFormat 80) := by decide

/-- V-DEC-2, V-DEC-6, V-DEC-7, V-DEC-9 to V-DEC-17: whole packets. -/
theorem test_decode_packets :
    decodePacket testCfg (pktWord 0xFFFFFFFF 0xFFFFFFFF) = ⟨.unknown, 8191, 255⟩ ∧
    decodePacket testCfg (pktWord 0x12345678 0x9ABCDEF0) = ⟨.write, 4515, 114⟩ ∧
    decodePacket testCfg (pktWord 0xDEADBEEF 0xCAFEBABE) = ⟨.write, 5487, 177⟩ ∧
    decodePacket testCfg (pktWord 0x00000000 0x00000002) = ⟨.write, 0, 0⟩ ∧
    decodePacket testCfg (pktWord 0xFFFFFFFF 0xFFFFFFFC) = ⟨.write, 8191, 255⟩ ∧
    decodePacket testCfg (pktWord 0x00000000 0xFFFFFFFE) = ⟨.write, 0, 255⟩ ∧
    decodePacket testCfg (pktWord 0xFFFFFFFF 0xFFFFFFFD) = ⟨.read, 8191, 255⟩ ∧
    decodePacket testCfg (pktWord 0x00000000 0x30011C0D) = ⟨.read, 0, 255⟩ ∧
    decodePacket testCfg (pktWord 0xFC00CFF3 0xCFFEE3F3) = ⟨.unknown, 0, 0⟩ ∧
    decodePacket testCfg (pktWord 0x00000004 0x00000004) = ⟨.write, 0, 1⟩ ∧
    decodePacket testCfg (pktWord 0x00000000 0x10000003) = ⟨.unknown, 0, 2⟩ := by decide

/-- Program P3: the bytes `11 22 33 44 55 66 77 88` are `PKT(0x44332211, 0x88776655)`, READ of address 412 and data 73. -/
theorem test_packet_bytes :
    packetWord [0x11, 0x22, 0x33, 0x44, 0x55, 0x66, 0x77, 0x88] = pktWord 0x44332211 0x88776655 ∧
    decodePacketBytes testCfg [0x11, 0x22, 0x33, 0x44, 0x55, 0x66, 0x77, 0x88] = .ok (.pktRead 412 73) := by decide

/-! ### Bit permutation -/

/-- V-ADDR-0 to V-ADDR-12. -/
theorem test_address_table :
    [0x00000008, 0x00001000, 0x00002000, 0x00010000, 0x00020000, 0x00040000, 0x00080000, 0x00100000, 0x00200000,
      0x00400000, 0x00800000, 0x01000000, 0x02000000].map (addrOf testCfg) =
      [1, 2, 4, 8, 16, 32, 64, 128, 256, 512, 1024, 2048, 4096] := by decide

/-- V-DATA-0 to V-DATA-7. -/
theorem test_data_table :
    [0x00000004, 0x10000000, 0x20000000, 0x00010000, 0x00001000, 0x00000800, 0x00000400, 0x00000008].map
      (dataOf testCfg 0) = [1, 2, 4, 8, 16, 32, 64, 128] := by decide

/-- V-D1-1 to V-D1-5. -/
theorem test_d1 :
    dataOf testCfg 0 0 = 0 ∧ dataOf testCfg 0 4 = 1 ∧ dataOf testCfg 4 0 = 1 ∧ dataOf testCfg 4 4 = 1 ∧
    dataOf testCfg 4 0x30011C08 = 255 := by decide

/-- V-EXT-3, V-EXT-4, V-EXT-6 to V-EXT-9, V-EXT-11, V-EXT-14. -/
theorem test_patterns :
    addrOf testCfg 0xFC00CFF7 = 0 ∧ addrOf testCfg 0x03FF3008 = 8191 ∧ dataOf testCfg 0 0xCFFEE3F3 = 0 ∧
    dataOf testCfg 0 0x30011C0C = 255 ∧ addrOf testCfg 0x02AA2008 = 5461 ∧ addrOf testCfg 0x01551000 = 2730 ∧
    dataOf testCfg 0 0x10010808 = 170 ∧ addrOf testCfg 0x01E13008 = 3855 ∧ dataOf testCfg 0 0x2000080C = 165 := by
  decide

/-- V-GEN-1 to V-GEN-10. -/
theorem test_extract_corners :
    extract 0x12345678 [] = 0 ∧ extract 0x80000000 [31] = 1 ∧ extract 0xFFFFFFFF (List.range 32) = 0xFFFFFFFF ∧
    extract 0x80000001 [31, 0] = 3 ∧ extract 0x000000F0 [7, 6, 5, 4] = 0xF ∧ extract 0x00000001 [0, 0] = 3 ∧
    extract 0x00000002 (List.replicate 32 1) = 0xFFFFFFFF ∧ extract (deposit 1 [5, 5]) [5, 5] = 3 ∧
    extractExtra 0 testCfg.dataPos 4 2 0 = 1 ∧ extractExtra 4 testCfg.dataPos 4 2 0 = 1 := by decide

/-- V-CLS-1 to V-CLS-6. -/
theorem test_strobes :
    [0x00000000, 0x00000002, 0x00000001, 0x00000003, 0xFFFFFFFC, 0xFFFFFFFD].map (opOf testCfg) =
      [.write, .write, .read, .unknown, .write, .read] := by decide

/-! ### Meanings, one step each -/

/-- V-ALN-1: the first byte is only buffered and counted. -/
theorem test_push_buffers :
    let t := after (exec (.push 0xAB) launched) launched
    t.carry = [0xAB] ∧ t.event = none ∧ t.totalBytes = 1 ∧ t.totalPackets = 0 := by decide

/-- V-ALN-3, V-RT-11: the 8th byte completes the packet; a byte count of 2^64 - 1 wraps. -/
theorem test_push_completes :
    let s := { launched with carry := [8, 0, 0, 0, 0, 0, 0], totalBytes := 0xFFFFFFFFFFFFFFFF }
    let t := after (exec (.push 0) s) s
    t.carry = [] ∧ t.event = some ⟨.write, some 40, 1, 0⟩ ∧ t.totalBytes = 0 ∧ t.writeCount = 1 ∧ t.runActive = true := by
  decide

/-- V-RUN-1, V-SEQ-3: a WRITE sets the run flag; the number 2^64 - 1 is given and the counter wraps to 0. -/
theorem test_pkt_write :
    let s := { launched with seqNext := 0xFFFFFFFFFFFFFFFF }
    let t := after (exec (.pktWrite 3 0) s) s
    t.runActive = true ∧ t.event = some ⟨.write, some 0xFFFFFFFFFFFFFFFF, 3, 0⟩ ∧ t.seqNext = 0 ∧ t.writeCount = 1 ∧
      t.readCount = 0 := by decide

/-- V-RUN-4: a READ keeps the run and counts as a read. -/
theorem test_pkt_read :
    let s := { launched with runActive := true }
    let t := after (exec (.pktRead 0 1) s) s
    t.runActive = true ∧ t.event = some ⟨.read, some 40, 0, 1⟩ ∧ t.seqNext = 41 ∧ t.readCount = 1 ∧ t.validPackets = 1 := by
  decide

/-- V-RUN-5, V-SEQ-2: an UNKNOWN packet ends the run, takes no number, and counts as a packet only. -/
theorem test_pkt_unknown :
    let s := { launched with runActive := true }
    let t := after (exec (.pktUnknown 8191 255) s) s
    t.runActive = false ∧ t.event = some ⟨.unknown, none, 8191, 255⟩ ∧ t.seqNext = 40 ∧ t.totalPackets = 1 ∧
      t.validPackets = 0 := by decide

/-- V-CMD-2: NOP changes nothing and drives nothing. -/
theorem test_nop : after (exec .nop launched) { launched with carry := [1] } = launched := by decide

/-- V-RT-4, V-RT-5: one tick early drives nothing; at the window's end the record is driven and the next window opens there. -/
theorem test_poll_boundary :
    after (exec (.poll 1000999) launched) launched = launched ∧
    (let t := after (exec (.poll 1001000) launched) launched
     t.stats = some ⟨1000, 1001000, 0, 0, 0, 0, 0⟩ ∧ t.windowStart = 1001000) := by decide

/-- V-RT-7: a POLL below the window's start records the fault and nothing else. -/
theorem test_poll_regression :
    after (exec (.poll 999) launched) launched = { launched with fault := some (.timeRegression 999 1000) } := by decide

/-- V-CMD-7, V-RUN-7, V-SEQ-4: RESET checks no time, discards the carry, and reloads the sequence base. -/
theorem test_reset :
    let s := { launched with carry := [1, 2, 3], runActive := true, seqNext := 49, totalBytes := 3, windowStart := 2500000 }
    after (exec (.reset 0) s) s = { launched with windowStart := 0 } := by decide

/-- V-RT-8: a faulted state takes no step, whatever comes. -/
theorem test_faulted_no_step :
    outcomeTag (step { launched with fault := some (.timeRegression 999 1000), pending := [resetWord 0] }) = 1 := by decide

/-- R116: a state with an illegal configuration has no step. -/
theorem test_invalid_config_no_step :
    outcomeTag (step { launched with cfg := { testCfg with oeBit := 0 }, pending := [nopWord] }) = 2 := by decide

/-- The first instruction after launch runs, for each row of the opcode table. -/
theorem test_first_step_of_each_row :
    [(64, 0x0000000000000000), (64, 0x0000000100000000), (64, 0x0000000300000000), (72, 0x00000000000000000),
      (72, 0x10000000000000000), (72, 0x20000000000000000), (72, 0x30000000000000000)].map
      (fun x => outcomeTag (step (State.reset.withFetchWord x.1 x.2))) = [0, 0, 0, 0, 0, 0, 0] := by decide

/-- A placed packet is the one that the next step completes (V-DEC-4). -/
theorem test_placed_packet :
    (after (step (launched.withFetchWord 64 0x0000000100000004)) launched).event = some ⟨.read, some 40, 0, 1⟩ := by
  decide

/-- V-STA-1, V-STA-2: the status outputs. -/
theorem test_status :
    statusCarryCount launched = 0 ∧ statusRunActive launched = 0 ∧
    statusCarryCount { launched with carry := [8, 0, 0] } = 3 := by decide

/-- V-ALN-7: 20 bytes on 5 carried ones complete 3 packets and leave the chunk's last byte. -/
theorem test_chunk :
    let r := pushChunk (List.replicate 19 0 ++ [7]) { launched with carry := [0, 0, 0, 0, 0] }
    r.1.length = 3 ∧ r.2.carry = [7] := by decide

/-- V-RT-6, V-RT-12, S1: the derived metrics, exact. -/
theorem test_metrics :
    throughputMBps 1000000 ⟨1000, 5000000, 24, 3, 2, 1, 1⟩ = 375 / 81903616 ∧
    meanInterEventUs 1000000 ⟨1000, 5000000, 24, 3, 2, 1, 1⟩ = 2499500 ∧
    throughputMBps 1000000 ⟨0, 2000000, 80, 10, 0, 0, 0⟩ = 5 / 131072 ∧
    meanInterEventUs 1000000 ⟨0, 2000000, 80, 10, 0, 0, 0⟩ = 0 ∧
    throughputMBps 1000000 ⟨0, 1000000, 1048576, 131072, 131072, 0, 131072⟩ = 1 ∧
    meanInterEventUs 1000000 ⟨0, 1000000, 1048576, 131072, 131072, 0, 131072⟩ = 15625 / 2048 := by
  refine ⟨?_, ?_, ?_, ?_, ?_, ?_⟩ <;>
    simp [throughputMBps, meanInterEventUs, elapsedSeconds, elapsedTicks, mib] <;> norm_num

/-- Program P1's second line, written as text, with a comment after it. -/
theorem test_assemble_text :
    assembleText ['F', 'E', 'E', 'D', ' ', '[', '0', '8', ',', ' ', 'F', 'F', ']', ' ', '@', ' ', '1', '0', ' ', ';', 'x'] =
      some [0x10000000000000008#66, 0x100000000000000FF#66, 0x2000000000000000A#66] ∧
    assembleText ['P', 'U', 'S', 'H', ' ', '0', 'x', '1', '1'] = some [0x10000000000000011#66] ∧
    assembleText ['R', 'E', 'S', 'E', 'T', ' ', '0', 'x', '3', '2'] = some [0x30000000000000032#66] ∧
    assembleText ['P', 'U', 'S', 'H', ' ', '1', '1'] = none ∧ assembleText [';', 'x'] = some [] := by decide

/-! ### Witnesses: the hypotheses of the statements are met -/

theorem witness_LaunchIsResetState :
    construct testCfg 1000 = .ok launched ∧ launched.cfg = testCfg ∧ launched.fault = none ∧ launched.pending = [] :=
  ⟨rfl, rfl, rfl, rfl⟩

theorem witness_ConfigCheckConditions : configCheck testCfg = true := by decide

theorem witness_InvalidConfigHasNoBlock :
    configCheck { testCfg with weBit := 1 } = false ∧
    configCheck ({ launched with cfg := { testCfg with windowTicks := 0 } } : State).cfg = false ∧
    configCheck testCfg = true := by decide

theorem witness_StepRunsDecodedInstruction :
    let s := { launched with pending := [pushWord 7] }
    configCheck s.cfg = true ∧ s.fault = none ∧ s.pending = pushWord 7 :: [] := by decide

theorem witness_IdleStepKeepsState :
    configCheck launched.cfg = true ∧ launched.fault = none ∧ launched.pending = [] := by decide

theorem witness_FaultedStateTakesNoStep :
    let s := { launched with fault := some (.timeRegression 999 1000) }
    configCheck s.cfg = true ∧ s.fault = some (.timeRegression 999 1000) := by decide

theorem witness_PlacedInstructionRuns :
    configCheck launched.cfg = true ∧ launched.fault = none := by decide

theorem witness_CommandKinds :
    (0x0DEADBEEFDEADBEEF : Command).extractLsb' 64 2 = 0#2 ∧ (0x1FFFFFFFFFFFFFF08 : Command).extractLsb' 64 2 = 1#2 ∧
    (0x200000000000F4240 : Command).extractLsb' 64 2 = 2#2 ∧ (0x30000000000000032 : Command).extractLsb' 64 2 = 3#2 := by
  decide

theorem witness_IgnoredPayloadBits :
    configCheck launched.cfg = true ∧ launched.fault = none ∧
    (0x08 : BitVec 64).extractLsb' 0 8 = (0xFFFFFFFFFFFFFF08 : BitVec 64).extractLsb' 0 8 := by decide

theorem witness_PacketClassByStrobes :
    (0x00000008 : Packet).getLsbD 32 = false ∧ (0x00000008 : Packet).getLsbD 33 = false := by decide

theorem witness_StrobeRule :
    (0x00000002 : Word).getLsbD testCfg.weBit = false ∧
    ((0x00000001 : Word).getLsbD testCfg.weBit = true ∧ (0x00000001 : Word).getLsbD testCfg.oeBit = false) ∧
    ((0x00000003 : Word).getLsbD testCfg.weBit = true ∧ (0x00000003 : Word).getLsbD testCfg.oeBit = true) ∧
    ((0x100000008 : Packet).getLsbD 32 = (0x8000000100000000 : Packet).getLsbD 32 ∧
      (0x100000008 : Packet).getLsbD 33 = (0x8000000100000000 : Packet).getLsbD 33) := by decide

theorem witness_IgnoredPacketBits :
    ∀ k ∈ [2, 3, 12, 13, 16, 17, 18, 19, 20, 21, 22, 23, 24, 25, 32, 33, 34, 35, 42, 43, 44, 48, 60, 61],
      (0x0000000100000008 : Packet).getLsbD k = (0xCFFEE3F1FC00CFFB : Packet).getLsbD k := by decide

theorem witness_DecodeEncodeRoundTrip :
    configCheck testCfg = true ∧ testCfg.addrPos.Nodup ∧ testCfg.dataPos.Nodup ∧ testCfg.d1Src ∉ testCfg.addrPos ∧
    testCfg.weBit ∉ testCfg.dataPos ∧ testCfg.oeBit ∉ testCfg.dataPos := by decide

theorem witness_AssemblerExpansions :
    255 < 2 ^ 8 ∧ 18446744073709551615 < 2 ^ 64 ∧ ∀ b ∈ [0, 255], b < 2 ^ 8 := by decide

theorem witness_ExtractBits :
    (List.range 32).length ≤ 32 ∧ 31 < (List.range 32).length ∧ (∀ p ∈ List.range 32, p < 32) ∧
    [5, 5].length ≤ 32 ∧ [5, 5].length ≤ 2 := by decide

theorem witness_ExtractExtraBits :
    testCfg.dataPos.length ≤ 32 ∧ 31 < 32 ∧ 7 < testCfg.dataPos.length ∧ testCfg.dataPos.length ≤ 8 := by decide

theorem witness_ExtractUndoesDeposit :
    testCfg.dataPos.Nodup ∧ (∀ p ∈ testCfg.dataPos, p < 32) ∧ (255 : Word).toNat < 2 ^ testCfg.dataPos.length ∧
    ¬ [31, 0, 31].Nodup ∧ (∀ p ∈ [31, 0, 31], p < 32) ∧ [31, 0, 31].length ≤ 32 := by decide

theorem witness_PktResults :
    (0x0000000200000008 : Packet).getLsbD 32 = false ∧
    ((0x0000000100000004 : Packet).getLsbD 32 = true ∧ (0x0000000100000004 : Packet).getLsbD 33 = false) ∧
    ((0x0000000300000004 : Packet).getLsbD 32 = true ∧ (0x0000000300000004 : Packet).getLsbD 33 = true) := by decide

/-- For `PushResult`, `PacketRunsInsidePush`, `AcceptByteResult`, `RunFlagTable`, `EventRecordFields` and `StatusOutputs`: a carry of 6 bytes and
one of 7, and a completed packet of each class. -/
theorem witness_carry_lengths :
    let six := { launched with carry := [8, 0, 0, 0, 0, 0] }
    let w := { launched with carry := [8, 0, 0, 0, 0, 0, 0] }
    let r := { launched with carry := [8, 0, 0, 0, 1, 0, 0] }
    let u := { launched with carry := [8, 0, 0, 0, 3, 0, 0] }
    six.carry.length < 7 ∧ w.carry.length = 7 ∧ r.carry.length = 7 ∧ u.carry.length = 7 ∧ w.carry.length ≤ 7 ∧
    (decodePacket testCfg (packetWord (w.carry ++ [0]))).op = .write ∧
    (decodePacket testCfg (packetWord (r.carry ++ [0]))).op = .read ∧
    (decodePacket testCfg (packetWord (u.carry ++ [0]))).op = .unknown := by decide

/-- For `PollNotDueResult`: both ends of the range that is not due. -/
theorem witness_PollNotDueResult :
    launched.windowStart.toNat ≤ (1000 : Time).toNat ∧
    (1000999 : Time).toNat < launched.windowStart.toNat + launched.cfg.windowTicks.toNat := by decide

theorem witness_PollClosesDueWindow :
    launched.windowStart.toNat + launched.cfg.windowTicks.toNat ≤ (1001000 : Time).toNat := by decide

theorem witness_PollTimeRegressionFaults :
    launched.fault = none ∧ (999 : Time).toNat < launched.windowStart.toNat := by decide

theorem witness_TimeRegressionStopsTheRun :
    let s := { launched with pending := [pollWord 999, nopWord] }
    configCheck s.cfg = true ∧ s.fault = none ∧ s.pending = pollWord 999 :: [nopWord] ∧
    (999 : Time).toNat < s.windowStart.toNat := by decide

/-- For `OnlyPollRaisesFault` and `ConfigurationIsFixed`: a step that raises the fault. -/
theorem witness_step_next :
    step { launched with pending := [pollWord 999] } =
      .next { launched with fault := some (.timeRegression 999 1000) } := rfl

/-- For `OutputsByTransaction`: a transaction that drives an event and one that drives a record. -/
theorem witness_OutputsByTransaction :
    (after (exec (.pktRead 0 0) launched) launched).event ≠ none ∧
    (after (exec (.poll 1001000) launched) launched).stats ≠ none := by decide

theorem witness_ValidNotAboveTotal :
    launched.validPackets.toNat ≤ launched.totalPackets.toNat ∧ launched.totalPackets.toNat < 2 ^ 64 - 1 ∧
    step launched = .next launched := ⟨by decide, by decide, rfl⟩

/-- The invariant holds in a state in the middle of a window. -/
theorem witness_Inv :
    Inv { launched with carry := [1, 2, 3], runActive := true, totalBytes := 11, totalPackets := 1, validPackets := 1,
                        writeCount := 1, seqNext := 41 } where
  legal := by decide
  carryBound := by decide
  validSum := by decide
  balance := ⟨0, by decide, by decide⟩
  faultMark := by intro _ _ h; cases h
  oneOutput := .inl rfl
  eventSeq := by intro _ h; cases h
  statsElapsed := by intro _ h; cases h

/-- For `InvariantKeptByStep`: that state has a step. -/
theorem witness_InvariantKeptByStep :
    outcomeTag (step { launched with carry := [1, 2, 3], runActive := true, totalBytes := 11, totalPackets := 1,
                                     validPackets := 1, writeCount := 1, seqNext := 41, pending := [pushWord 4] }) = 0 := by
  decide

/-- For `TimeDutyKeepsRunCorrect`: the invariant, no fault, and a POLL that keeps the time duty. -/
theorem witness_TimeDutyKeepsRunCorrect :
    let s := { launched with pending := [pollWord 1000] }
    Inv s ∧ s.fault = none ∧ TimeDuty s := by
  refine ⟨⟨by decide, by decide, by decide, ⟨0, by decide, by decide⟩, ?_, .inl rfl, ?_, ?_⟩, rfl, ?_⟩
  · intro _ _ h; cases h
  · intro _ h; cases h
  · intro _ h; cases h
  · intro now s' h
    have e : decodeCommand (pollWord 1000) = .poll 1000 := by decide
    simp only [takeTransaction, e, Option.some.injEq, Prod.mk.injEq, Instr.poll.injEq] at h
    rw [← h.1]; decide

theorem witness_DecoderReadsOnlyThePacket :
    let s := { launched with carry := [8, 0, 0, 0, 1, 0, 0] }
    let s' := { s with runActive := true, seqNext := 9, totalBytes := 99, windowStart := 5 }
    s.cfg = s'.cfg ∧ s.carry = s'.carry ∧ s ≠ s' := by decide

theorem witness_ChunkPacketsByCount : ({ launched with carry := [1, 2, 3, 4, 5, 6, 7] } : State).carry.length ≤ 7 := by
  decide

/-- For `CountersWrap`: a PUSH short of a packet, one that completes a packet of each class, and the bytes of a window. -/
theorem witness_CountersWrap :
    let full : Byte → State := fun strobes => { State.reset with carry := [8, 0, 0, 0, strobes, 0, 0], totalPackets := -1 }
    let op : Byte → Op := fun strobes => (decodePacket Config.hw (packetWord ((full strobes).carry ++ [0]))).op
    launched.carry.length < 7 ∧ (full 3).carry.length = 7 ∧ (full 3).cfg = Config.hw ∧
    op 0 = .write ∧ op 1 = .read ∧ op 3 = .unknown ∧ [(8 : Byte)].length < 2 ^ 64 :=
  ⟨by decide, rfl, rfl, by decide, by decide, by decide, by decide⟩

/-- R90, R99: an UNKNOWN packet takes a total of 2^64 - 1 to 0 and leaves the count of valid packets. -/
theorem test_unknown_total_wraps :
    let t := pushByte 0 { State.reset with carry := [8, 0, 0, 0, 3, 0, 0], totalPackets := -1 }
    t.totalPackets = 0 ∧ t.validPackets = 0 ∧ t.readCount = 0 ∧ t.writeCount = 0 :=
  ⟨rfl, rfl, rfl, rfl⟩

/-- Source example S7: 5 + 11 bytes against 16; and a carry of 7 bytes. -/
theorem witness_ChunkBoundariesDoNotMatter :
    ({ launched with carry := [1, 2, 3, 4, 5, 6, 7] } : State).carry.length ≤ 7 ∧
    [List.replicate 5 (8 : Byte), List.replicate 11 8].flatten = [List.replicate 16 8].flatten := by decide

/-- Program P2's classes WRITE, UNKNOWN, READ (V-SEQ-1), by the functions that statement's right side is built from. -/
theorem test_numbered_events :
    let ds : List DecodedPacket := [⟨.write, 3, 0⟩, ⟨.unknown, 0, 0⟩, ⟨.read, 0, 1⟩]
    numberedEvents 40 ds = [⟨.write, some 40, 3, 0⟩, ⟨.unknown, none, 0, 0⟩, ⟨.read, some 41, 0, 1⟩] ∧
    runFlagAfter false ds = true ∧ runFlagAfter true [] = true ∧ packetCount opValid ds = 2 := by decide

theorem witness_FeedRunsPushesThenPoll :
    let s := { launched with pending := feedCommands [8, 0] 1001000 ++ [nopWord] }
    configCheck s.cfg = true ∧ s.fault = none ∧ s.pending = feedCommands [8, 0] 1001000 ++ [nopWord] := by decide

/-- For `SequenceNumbersConsecutive`: a run with a number given, and its number. -/
theorem witness_SequenceNumbersConsecutive :
    noReset [.pktWrite 3 0, .pktUnknown 0 0] = true ∧
    ((runAll (.reset 0 :: [.pktWrite 3 0, .pktUnknown 0 0]) launched).map fun r => outputSeqs r.1) = some [40] := by decide

/-- For `WindowsTileTimeAndTraffic`: a run that closes a window. -/
theorem witness_WindowsTileTimeAndTraffic :
    noReset [.push 1, .poll 1001000] = true ∧
    ((runAll [.push 1, .poll 1001000] launched).map fun r => outputStats r.1) =
      some [⟨1000, 1001000, 1, 0, 0, 0, 0⟩] := by decide

/-- For `OnlyPollClosesWindow` and `TrafficNeverStopsTheBlock`: a run with no POLL. -/
theorem witness_no_poll :
    noPoll [.push 1, .nop] = true ∧ noReset [.push 1, .nop] = true ∧ configCheck launched.cfg = true ∧
    launched.fault = none ∧ (runAll [.push 1, .nop] launched).isSome = true := by decide

theorem witness_RecordSpansWindow :
    configCheck launched.cfg = true ∧
    (after (exec (.poll 1001000) launched) launched).stats = some ⟨1000, 1001000, 0, 0, 0, 0, 0⟩ := by decide

/-- For `DerivedMetrics`: a record with a valid packet, and one without. -/
theorem witness_DerivedMetrics :
    0 < elapsedTicks ⟨1000, 5000000, 24, 3, 2, 1, 1⟩ ∧
    (⟨1000, 5000000, 24, 3, 2, 1, 1⟩ : Stats).validPackets ≠ 0 ∧
    0 < elapsedTicks ⟨0, 2000000, 80, 10, 0, 0, 0⟩ ∧ (⟨0, 2000000, 80, 10, 0, 0, 0⟩ : Stats).validPackets = 0 := by decide

theorem witness_EmptyWindowReportsZero :
    (∀ i ∈ [Instr.nop, .poll 999999], i = .nop ∨ ∃ u, i = .poll u ∧
      u.toNat < (0 : Time).toNat + launched.cfg.windowTicks.toNat) ∧
    (0 : Time).toNat + launched.cfg.windowTicks.toNat ≤ (1000000 : Time).toNat ∧
    (runAll (.reset 0 :: [.nop, .poll 999999] ++ [.poll 1000000]) launched).isSome = true := by
  refine ⟨?_, by decide, by decide⟩
  intro i hi
  rcases List.mem_cons.1 hi with rfl | hi
  · exact .inl rfl
  · rcases List.mem_cons.1 hi with rfl | hi
    · exact .inr ⟨999999, rfl, by decide⟩
    · cases hi

/-- For `EmptyWindowReportsZero`: a window that a closing POLL opens, and the one open at construction. -/
theorem witness_EmptyWindowReportsZero_openers :
    launched.windowStart.toNat + launched.cfg.windowTicks.toNat ≤ (1001000 : Time).toNat ∧
    (runAll (.poll 1001000 :: [.nop] ++ [.poll 2001000]) launched).isSome = true ∧
    construct launched.cfg 1000 = .ok launched ∧
    (runAll ([.nop] ++ [.poll 1001000]) launched).isSome = true :=
  ⟨by decide, by decide, rfl, by decide⟩

/-- For `FeedRunsPushesThenPoll`: a feed that closes the window drives a record. -/
theorem witness_FeedRunsPushesThenPoll_record :
    (feed [8, 0] 1001000 launched).2.1 = some ⟨1000, 1001000, 2, 0, 0, 0, 0⟩ := by decide

/-- For `PacketClassesRunByPush`: this hardware's configuration, 7 carried bytes, and a packet of each class. -/
theorem witness_PacketClassesRunByPush :
    let w := { State.reset with carry := [8, 0, 0, 0, 0, 0, 0] }
    let r := { State.reset with carry := [8, 0, 0, 0, 1, 0, 0] }
    let u := { State.reset with carry := [8, 0, 0, 0, 3, 0, 0] }
    w.cfg = Config.hw ∧ r.cfg = Config.hw ∧ u.cfg = Config.hw ∧
    w.carry.length = 7 ∧ r.carry.length = 7 ∧ u.carry.length = 7 ∧
    (packetWord (w.carry ++ [0])).getLsbD 32 = false ∧
    ((packetWord (r.carry ++ [0])).getLsbD 32 = true ∧ (packetWord (r.carry ++ [0])).getLsbD 33 = false) ∧
    ((packetWord (u.carry ++ [0])).getLsbD 32 = true ∧ (packetWord (u.carry ++ [0])).getLsbD 33 = true) :=
  ⟨rfl, rfl, rfl, rfl, rfl, rfl, by decide, by decide, by decide⟩

end Sys2Proof.Tests
end

/-!
PROOFS. The state: what a step can do and what it leaves unchanged, the machine's invariant, the reset values, the
status outputs, and the run flag (spec/10_state.md).
-/

namespace Sys2Proof.Machine

/-! ### What PUSH, POLL and a step do -/

theorem pushByte_short (b : Byte) {s : State} (h : s.carry.length < 7) :
    pushByte b s = setCarry (s.carry ++ [b]) (countByte (quiet s)) := by
  rcases pushByte_cases b s with ⟨-, e⟩ | ⟨h7, -⟩
  · exact e
  · omega

theorem pushByte_full (b : Byte) {s : State} (h : 7 ≤ s.carry.length) :
    pushByte b s =
      completePacket (decodePacket s.cfg (packetWord (s.carry ++ [b]))) (setCarry [] (countByte (quiet s))) := by
  rcases pushByte_cases b s with ⟨h7, -⟩ | ⟨-, e⟩
  · omega
  · exact e

@[simp] theorem pushByte_cfg (b : Byte) (s : State) : (pushByte b s).cfg = s.cfg := by
  rcases pushByte_cases b s with ⟨-, e⟩ | ⟨-, e⟩ <;> simp [e]

@[simp] theorem pushByte_pending (b : Byte) (s : State) : (pushByte b s).pending = s.pending := by
  rcases pushByte_cases b s with ⟨-, e⟩ | ⟨-, e⟩ <;> simp [e]

@[simp] theorem pollAt_cfg (now : Time) (s : State) : (pollAt now s).cfg = s.cfg := by
  rcases pollAt_cases now s with ⟨-, e⟩ | ⟨-, -, e⟩ | ⟨-, -, e⟩ <;> simp [e]

@[simp] theorem pollAt_pending (now : Time) (s : State) : (pollAt now s).pending = s.pending := by
  rcases pollAt_cases now s with ⟨-, e⟩ | ⟨-, -, e⟩ | ⟨-, -, e⟩ <;> simp [e]

/-- The state in which the next transaction applies: it is no longer among those to come (R102). -/
def dropNext (s : State) : State := { s with pending := s.pending.tail }

/-- A step answers what NOP, PUSH, POLL or RESET leaves; the idle step is a NOP with nothing to consume. -/
theorem step_next_cases {s t : State} (h : step s = .next t) :
    t = quiet (dropNext s) ∨ (∃ b, t = pushByte b (dropNext s)) ∨ (∃ now, t = pollAt now (dropNext s)) ∨
      ∃ now, t = resetAt now (dropNext s) := by
  obtain ⟨-, -, ⟨empty, rfl⟩ | ⟨C, rest, issued, ran⟩⟩ := step_cases h
  · exact .inl (by simp [quiet, dropNext, empty])
  · have e : { s with pending := rest } = dropNext s := by simp [dropNext, issued]
    rw [e] at ran
    rcases decodeCommand_cases C with d | ⟨b, d⟩ | ⟨now, d⟩ | ⟨now, d⟩ <;> rw [d] at ran <;> injection ran with ran
    · exact .inl ran.symm
    · exact .inr (.inl ⟨b, ran.symm⟩)
    · exact .inr (.inr (.inl ⟨now, ran.symm⟩))
    · exact .inr (.inr (.inr ⟨now, ran.symm⟩))

/-! ### The invariant -/

theorem seqFor_isSome (op : Op) (s : State) : (seqFor op s).isSome = opValid op := by
  cases op <;> rfl

/-- Counting one byte and carrying one more keeps the balance of bytes (R28 c). -/
theorem bytesBalance_byte_buffered {s t : State} (h : bytesBalance s) (bytes : t.totalBytes = s.totalBytes + 1)
    (packets : t.totalPackets = s.totalPackets) (carry : t.carry.length = s.carry.length + 1) : bytesBalance t := by
  obtain ⟨c0, small, eq⟩ := h
  refine ⟨c0, small, ?_⟩
  rw [bytes, packets, carry, BitVec.ofNat_add, ← BitVec.add_assoc, ← eq]
  ac_rfl

/-- Counting the 8th byte of a packet and the packet keeps the balance of bytes (R28 c). -/
theorem bytesBalance_packet_completed {s t : State} (h : bytesBalance s) (full : s.carry.length = 7)
    (bytes : t.totalBytes = s.totalBytes + 1) (packets : t.totalPackets = s.totalPackets + 1)
    (carry : t.carry = []) : bytesBalance t := by
  obtain ⟨c0, small, eq⟩ := h
  refine ⟨c0, small, ?_⟩
  rw [full] at eq
  rw [bytes, packets, carry, List.length_nil]
  bv_omega

/-- A fresh window begins with the bytes of the carry (R28 c). -/
theorem bytesBalance_openWindow (now : Time) {s : State} (h : s.carry.length ≤ 7) :
    bytesBalance (openWindow now s) :=
  ⟨s.carry.length, h, by simp⟩

/-- The invariant says nothing of the transactions to come. -/
theorem Inv.dropNext {s : State} (h : Inv s) : Inv (dropNext s) := { h with }

/-- Dropping the outputs keeps the invariant. -/
theorem Inv.quiet {s : State} (h : Inv s) : Inv (quiet s) where
  legal := h.legal
  carryBound := h.carryBound
  validSum := h.validSum
  balance := h.balance
  faultMark := h.faultMark
  oneOutput := .inl rfl
  eventSeq := by simp
  statsElapsed := by simp

/-- PUSH keeps the invariant. -/
theorem Inv.pushByte {s : State} (h : Inv s) (b : Byte) : Inv (pushByte b s) := by
  rcases pushByte_cases b s with ⟨short, e⟩ | ⟨full, e⟩
  · rw [e]
    exact
      { h.quiet with
        carryBound := by simpa using Nat.succ_le_of_lt short
        balance := bytesBalance_byte_buffered h.balance (by simp) (by simp) (by simp) }
  · have seven : s.carry.length = 7 := Nat.le_antisymm h.carryBound full
    rw [e]
    generalize decodePacket s.cfg (packetWord (s.carry ++ [b])) = d
    exact
      { legal := by simpa using h.legal
        carryBound := by simp
        validSum := by
          cases hop : d.op <;> simp [hop, opValid, h.validSum] <;> ac_rfl
        balance := bytesBalance_packet_completed h.balance seven (by simp) (by simp) (by simp)
        faultMark := by simpa using h.faultMark
        oneOutput := .inr (by simp)
        eventSeq := by simp [seqFor_isSome]
        statsElapsed := by simp }

/-- A POLL in an unfaulted state keeps the invariant: a mark it raises is a time regression, and a record it drives closed
a due window. -/
theorem Inv.pollAt {s : State} (h : Inv s) (clear : s.fault = none) (now : Time) : Inv (pollAt now s) := by
  rcases pollAt_cases now s with ⟨early, e⟩ | ⟨late, due, e⟩ | ⟨-, -, e⟩ <;> rw [e]
  · exact { h.quiet with faultMark := by simpa using early }
  · have spans : s.windowStart.toNat + s.cfg.windowTicks.toNat ≤ now.toNat := by
      have := of_decide_eq_true due
      omega
    exact
      { legal := h.legal
        carryBound := h.carryBound
        validSum := rfl
        balance := bytesBalance_openWindow now h.carryBound
        faultMark := by simp [clear]
        oneOutput := .inl rfl
        eventSeq := by simp
        statsElapsed := by simpa [windowRecord] using spans }
  · exact h.quiet

/-- RESET leaves a state that meets the invariant, whatever the registers held before. -/
theorem inv_resetAt {s : State} (legal : configCheck s.cfg = true) (clear : s.fault = none) (now : Time) :
    Inv (resetAt now s) where
  legal := legal
  carryBound := Nat.zero_le 7
  validSum := rfl
  balance := bytesBalance_openWindow now (Nat.zero_le 7)
  faultMark := by simp [clear]
  oneOutput := .inl rfl
  eventSeq := by simp
  statsElapsed := by simp

/-- Settles O45: a step is a NOP, PUSH, POLL or RESET in an unfaulted state, and each keeps the invariant. -/
theorem invariantKeptByStep : Obligations.InvariantKeptByStep := by
  intro s t inv h
  have clear : (dropNext s).fault = none := (step_cases h).2.1
  rcases step_next_cases h with rfl | ⟨b, rfl⟩ | ⟨now, rfl⟩ | ⟨now, rfl⟩
  · exact inv.dropNext.quiet
  · exact inv.dropNext.pushByte b
  · exact inv.dropNext.pollAt clear now
  · exact inv_resetAt inv.dropNext.legal clear now

/-- This hardware's configuration is legal for every value of the OPEN parameters (R68). -/
theorem configCheck_hw : configCheck Config.hw = true := by
  simp [configCheck, positionsInRange, Config.hw]

/-- Settles O44: the launch state is what RESET at the launch time leaves (R128). -/
theorem invariantAtLaunch : Obligations.InvariantAtLaunch :=
  inv_resetAt (s := State.reset) configCheck_hw rfl Config.launchTime

/-! ### What every step leaves unchanged -/

/-- Settles O41: every meaning keeps the configuration and the transactions to come; a step takes one of these first. -/
theorem configurationIsFixed : Obligations.ConfigurationIsFixed := by
  refine ⟨fun i s => ?_, fun s t h => ?_⟩
  · cases i with
    | nop => exact ⟨quiet s, rfl, rfl, rfl⟩
    | push b => exact ⟨pushByte b s, rfl, pushByte_cfg b s, pushByte_pending b s⟩
    | poll now => exact ⟨pollAt now s, rfl, pollAt_cfg now s, pollAt_pending now s⟩
    | reset now => exact ⟨resetAt now s, rfl, rfl, rfl⟩
    | pktWrite a d => exact ⟨completePacket ⟨.write, a, d⟩ (quiet s), rfl, rfl, rfl⟩
    | pktRead a d => exact ⟨completePacket ⟨.read, a, d⟩ (quiet s), rfl, rfl, rfl⟩
    | pktUnknown a d => exact ⟨completePacket ⟨.unknown, a, d⟩ (quiet s), rfl, rfl, rfl⟩
  · rcases step_next_cases h with rfl | ⟨b, rfl⟩ | ⟨now, rfl⟩ | ⟨now, rfl⟩ <;> simp [dropNext]

/-! ### Valid packets and total packets -/

theorem pushByte_validPackets_le (b : Byte) {s : State} (le : s.validPackets.toNat ≤ s.totalPackets.toNat)
    (room : s.totalPackets.toNat < 2 ^ 64 - 1) :
    (pushByte b s).validPackets.toNat ≤ (pushByte b s).totalPackets.toNat := by
  rcases pushByte_cases b s with ⟨-, e⟩ | ⟨-, e⟩
  · simpa [e] using le
  · simp only [e, completePacket_validPackets, completePacket_totalPackets, setCarry_validPackets,
      setCarry_totalPackets, countByte_validPackets, countByte_totalPackets, quiet_validPackets, quiet_totalPackets]
    split <;> bv_omega

theorem pollAt_validPackets_le (now : Time) {s : State} (le : s.validPackets.toNat ≤ s.totalPackets.toNat) :
    (pollAt now s).validPackets.toNat ≤ (pollAt now s).totalPackets.toNat := by
  rcases pollAt_cases now s with ⟨-, e⟩ | ⟨-, -, e⟩ | ⟨-, -, e⟩ <;> simp [e, le]

/-- Settles O46: only PUSH counts packets, and it counts a valid one in the total too. -/
theorem validNotAboveTotal : Obligations.ValidNotAboveTotal := by
  intro s t le room h
  rcases step_next_cases h with rfl | ⟨b, rfl⟩ | ⟨now, rfl⟩ | ⟨now, rfl⟩
  · exact le
  · exact pushByte_validPackets_le b le room
  · exact pollAt_validPackets_le now le
  · exact Nat.le_refl 0

/-! ### The run flag -/

/-- A completed packet overwrites the run flag without reading it. -/
theorem completePacket_runActive_irrelevant (d : DecodedPacket) (s : State) (v : Bool) :
    completePacket d { s with runActive := v } = completePacket d s := by
  obtain ⟨op, address, data⟩ := d
  cases op <;> rfl

/-- PUSH keeps the run flag or overwrites it; it does not read it. -/
theorem pushByte_runActive_irrelevant (b : Byte) (s : State) (v : Bool) :
    pushByte b { s with runActive := v } =
      { pushByte b s with runActive := (pushByte b { s with runActive := v }).runActive } := by
  rcases Nat.lt_or_ge s.carry.length 7 with short | full
  · rw [pushByte_short b short, pushByte_short b (s := { s with runActive := v }) short]
    rfl
  · have e : pushByte b { s with runActive := v } = pushByte b s := by
      rw [pushByte_full b full, pushByte_full b (s := { s with runActive := v }) full]
      exact completePacket_runActive_irrelevant _ (setCarry [] (countByte (quiet s))) v
    rw [e]

/-- POLL keeps the run flag and does not read it. -/
theorem pollAt_runActive_irrelevant (now : Time) (s : State) (v : Bool) :
    pollAt now { s with runActive := v } = { pollAt now s with runActive := v } := by
  rcases pollAt_cases now s with ⟨early, e⟩ | ⟨late, due, e⟩ | ⟨late, notDue, e⟩ <;> rw [e]
  · exact if_pos early
  · exact (if_neg (Nat.not_lt.2 late)).trans (if_pos due)
  · exact (if_neg (Nat.not_lt.2 late)).trans (if_neg (ne_true_of_eq_false notDue))

/-- Settles O48, instruction by instruction. -/
theorem runFlagReadByNothing : Obligations.RunFlagReadByNothing := by
  intro i s v
  cases i with
  | nop => exact ⟨_, _, rfl, rfl, rfl⟩
  | push b => exact ⟨_, _, rfl, rfl, pushByte_runActive_irrelevant b s v⟩
  | poll now => exact ⟨_, _, rfl, rfl, by rw [pollAt_runActive_irrelevant]⟩
  | reset now => exact ⟨_, _, rfl, rfl, rfl⟩
  | pktWrite a d => exact ⟨_, _, rfl, rfl, rfl⟩
  | pktRead a d => exact ⟨_, _, rfl, rfl, rfl⟩
  | pktUnknown a d => exact ⟨_, _, rfl, rfl, rfl⟩

/-! ### Reset values and status outputs -/

theorem statusCarryCount_toNat {s : State} (h : s.carry.length ≤ 7) : (statusCarryCount s).toNat = s.carry.length :=
  Nat.mod_eq_of_lt (Nat.lt_succ_of_le h)

theorem statusRunActive_eq_one (s : State) : statusRunActive s = 1 ↔ s.runActive = true := by
  rw [statusRunActive]
  cases s.runActive <;> decide

/-- Settles O42: 7 fits in the 3 bits of the carry's status, and the run flag is one bit. -/
theorem statusOutputs : Obligations.StatusOutputs :=
  fun s h => ⟨statusCarryCount_toNat h, statusRunActive_eq_one s⟩

/-- Settles O1: the fields of `resetAt`, and those of the launch state. -/
theorem resetAndLaunchValues : Obligations.ResetAndLaunchValues := by
  refine ⟨fun now s => ⟨resetAt now s, rfl, ?_⟩, ?_⟩
  · simp [statusCarryCount, statusRunActive]
  · simp [statusCarryCount, statusRunActive, State.reset, Config.hw]

end Sys2Proof.Machine

/-!
PROOFS. Bytes and packets: how bytes are read as packet words, which outputs a transaction drives, and how a chunk of
bytes falls into packets (spec/20_memory.md).
-/

namespace Sys2Proof.Machine

/-! ### The bytes of a packet word -/

theorem packetWord_cons_firstByte (b : Byte) (bs : List Byte) : (packetWord (b :: bs)).extractLsb' 0 8 = b := by
  ext i hi
  have : i < 64 := by omega
  simp [packetWord, hi, this]

/-- A later byte of a packet word is a byte of the word of the bytes after the first. -/
theorem packetWord_cons_laterByte (b : Byte) (bs : List Byte) (k : Nat) (h : k + 16 ≤ 64) :
    (packetWord (b :: bs)).extractLsb' (k + 8) 8 = (packetWord bs).extractLsb' k 8 := by
  ext i hi
  have inWord : k + 8 + i < 64 := by omega
  have notFirst : ¬ k + 8 + i < 8 := by omega
  have shifted : k + 8 + i - 8 = k + i := by omega
  have pastFirst : b.getLsbD (k + 8 + i) = false := BitVec.getLsbD_of_ge _ _ (by omega)
  simp only [packetWord, BitVec.getElem_extractLsb', BitVec.getLsbD_or, BitVec.getLsbD_setWidth,
    BitVec.getLsbD_shiftLeft, inWord, notFirst, shifted, pastFirst, decide_true, decide_false, Bool.not_false,
    Bool.and_false, Bool.true_and, Bool.false_or]

/-- Any 32 bits of a packet word are `le32` of their 4 bytes (R10). -/
theorem extractLsb'_eq_le32 (P : Packet) (k : Nat) :
    P.extractLsb' k 32 =
      le32 (P.extractLsb' k 8) (P.extractLsb' (k + 8) 8) (P.extractLsb' (k + 16) 8) (P.extractLsb' (k + 24) 8) := by
  ext i hi
  simp only [le32, BitVec.getElem_or, BitVec.getElem_setWidth, BitVec.getElem_shiftLeft, BitVec.getElem_extractLsb',
    BitVec.getLsbD_extractLsb']
  grind

/-- A packet word is its two registers side by side. -/
theorem packet_eq_registers (P : Packet) : P = (regA P).setWidth 64 ||| (regB P).setWidth 64 <<< 32 := by
  ext i hi
  simp only [regA, regB, BitVec.getElem_or, BitVec.getElem_setWidth, BitVec.getElem_shiftLeft,
    BitVec.getLsbD_extractLsb']
  grind

/-- Settles O16: reading 8 bytes as a word loses none, and a register is the little-endian reading of its 4 bytes. -/
theorem packetWordLittleEndian : Obligations.PacketWordLittleEndian := by
  intro b0 b1 b2 b3 b4 b5 b6 b7 P
  refine ⟨?_, ?_, packet_eq_registers P, ?_⟩
  · simp [P, regA, extractLsb'_eq_le32, packetWord_cons_firstByte, packetWord_cons_laterByte]
  · simp [P, regB, extractLsb'_eq_le32, packetWord_cons_firstByte, packetWord_cons_laterByte]
  · simp [P, packetBytes, packetWord_cons_firstByte, packetWord_cons_laterByte]

/-! ### What a PUSH reads -/

theorem pushByte_carry (b : Byte) (s : State) : (pushByte b s).carry = (acceptByte b s.carry).1 := by
  rcases pushByte_cases b s with ⟨short, e⟩ | ⟨full, e⟩
  · simp [e, acceptByte_short b short]
  · simp [e, acceptByte_full b full]

/-- The event of a PUSH carries the packet that ACCEPT-BYTE completed, decoded, and there is none where it completed none. -/
theorem pushByte_event_map (b : Byte) (s : State) :
    (pushByte b s).event.map eventPacket =
      (acceptByte b s.carry).2.map fun bytes => decodePacket s.cfg (packetWord bytes) := by
  rcases pushByte_cases b s with ⟨short, e⟩ | ⟨full, e⟩
  · simp [e, acceptByte_short b short]
  · simp [e, acceptByte_full b full, eventPacket]

/-- Settles O49: the carry and the packet of the event are those of ACCEPT-BYTE, which reads the carry and the byte. -/
theorem decoderReadsOnlyThePacket : Obligations.DecoderReadsOnlyThePacket := by
  intro b s s' cfg carry
  refine ⟨pushByte b s, pushByte b s', rfl, rfl, ?_, ?_⟩
  · rw [pushByte_event_map, pushByte_event_map, cfg, carry]
  · rw [pushByte_carry, pushByte_carry, carry]

/-! ### The outputs of a transaction -/

@[simp] theorem pushByte_stats (b : Byte) (s : State) : (pushByte b s).stats = none := by
  rcases pushByte_cases b s with ⟨-, e⟩ | ⟨-, e⟩ <;> simp [e]

theorem pushByte_event_ne_none (b : Byte) (s : State) : (pushByte b s).event ≠ none ↔ 7 ≤ s.carry.length := by
  rcases pushByte_cases b s with ⟨short, e⟩ | ⟨full, e⟩
  · simp [e, short]
  · simp [e, full]

@[simp] theorem pollAt_event (now : Time) (s : State) : (pollAt now s).event = none := by
  rcases pollAt_cases now s with ⟨-, e⟩ | ⟨-, -, e⟩ | ⟨-, -, e⟩ <;> simp [e]

theorem windowDue_of_pollAt_stats {now : Time} {s : State} (h : (pollAt now s).stats ≠ none) :
    windowDue now s = true := by
  rcases pollAt_cases now s with ⟨-, e⟩ | ⟨-, due, -⟩ | ⟨-, -, e⟩
  · simp [e] at h
  · exact due
  · simp [e] at h

/-- Settles O40, instruction by instruction. -/
theorem outputsByTransaction : Obligations.OutputsByTransaction := by
  intro i s t h
  cases i with
  | nop =>
    cases h
    simp
  | reset now =>
    cases h
    simp
  | push b =>
    cases h
    exact ⟨.inr (pushByte_stats b s), fun e => .inl ⟨b, rfl, (pushByte_event_ne_none b s).1 e⟩, by simp⟩
  | poll now =>
    cases h
    exact ⟨.inl (pollAt_event now s), by simp, fun r => ⟨now, rfl, windowDue_of_pollAt_stats r⟩⟩
  | pktWrite a d =>
    cases h
    simp
  | pktRead a d =>
    cases h
    simp
  | pktUnknown a d =>
    cases h
    simp

/-! ### A chunk of bytes -/

theorem wholePackets_short {bytes : List Byte} (h : bytes.length < 8) : wholePackets bytes = [] := by
  unfold wholePackets
  split
  · simp only [List.length_cons] at h
    omega
  · rfl

theorem wholePackets_append {p : List Byte} (h : p.length = 8) (rest : List Byte) :
    wholePackets (p ++ rest) = p :: wholePackets rest := by
  match p, h with
  | [b0, b1, b2, b3, b4, b5, b6, b7], _ => rfl

/-- The packets of a byte stream are those its count gives (R39). -/
theorem wholePackets_length (bytes : List Byte) : (wholePackets bytes).length = bytes.length / 8 := by
  rcases Nat.lt_or_ge bytes.length 8 with short | full
  · rw [wholePackets_short short, Nat.div_eq_of_lt short, List.length_nil]
  · have eight : (bytes.take 8).length = 8 := by simp [full]
    have rest := wholePackets_length (bytes.drop 8)
    rw [← List.take_append_drop 8 bytes, wholePackets_append eight, List.length_cons, rest, List.length_append, eight,
      Nat.add_div_left _ (by decide)]
termination_by bytes.length

theorem pushChunk_cons (b : Byte) (bs : List Byte) (s : State) :
    pushChunk (b :: bs) s =
      ((pushByte b s).event.toList ++ (pushChunk bs (pushByte b s)).1, (pushChunk bs (pushByte b s)).2) := rfl

/-- A chunk completes the whole packets of the carried bytes and its own, in order, and the carry keeps the bytes after them
(R82). -/
theorem pushChunk_packets_and_carry (c : List Byte) (s : State) (h : s.carry.length ≤ 7) :
    (pushChunk c s).1.map eventPacket = decodedPackets s.cfg (s.carry ++ c) ∧
    (pushChunk c s).2.carry = (s.carry ++ c).drop (8 * (wholePackets (s.carry ++ c)).length) := by
  induction c generalizing s with
  | nil => simp [pushChunk, decodedPackets, wholePackets_short (Nat.lt_succ_of_le h)]
  | cons b bs ih =>
    rw [List.append_cons, pushChunk_cons]
    rcases pushByte_cases b s with ⟨short, e⟩ | ⟨full, e⟩
    · obtain ⟨packets, carry⟩ := ih (pushByte b s) (by simpa [e] using short)
      exact ⟨by simpa [e] using packets, by simpa [e] using carry⟩
    · obtain ⟨packets, carry⟩ := ih (pushByte b s) (by simp [e])
      have eight : (s.carry ++ [b]).length = 8 := by
        rw [List.length_append, List.length_singleton]
        omega
      rw [decodedPackets, wholePackets_append eight]
      generalize s.carry ++ [b] = p at e eight
      constructor
      · simpa [e, eventPacket, decodedPackets] using packets
      · rw [List.length_cons, Nat.mul_succ, Nat.add_comm, ← eight, List.drop_length_add_append, eight]
        simpa [e] using carry

/-- Settles O50: the count of the events is that of the whole packets, and the carry is what these leave. -/
theorem chunkPacketsByCount : Obligations.ChunkPacketsByCount := by
  intro c s h r
  obtain ⟨packets, carry⟩ := pushChunk_packets_and_carry c s h
  have events : r.1.length = (wholePackets (s.carry ++ c)).length := by
    simpa [decodedPackets] using congrArg List.length packets
  have count : r.1.length = (s.carry.length + c.length) / 8 := by
    rw [events, wholePackets_length, List.length_append]
  have kept : r.2.carry = (s.carry ++ c).drop (8 * r.1.length) := by rw [events, ← carry]
  refine ⟨count, ?_, kept, packets⟩
  rw [kept, List.length_drop, List.length_append, count]
  omega

/-! ### Runs without a POLL -/

@[simp] theorem pushByte_fault (b : Byte) (s : State) : (pushByte b s).fault = s.fault := by
  rcases pushByte_cases b s with ⟨-, e⟩ | ⟨-, e⟩ <;> simp [e]

theorem noPoll_cons {i : Instr} {is : List Instr} (h : noPoll (i :: is) = true) :
    (∀ now, i ≠ .poll now) ∧ noPoll is = true := by
  obtain ⟨first, rest⟩ := Bool.and_eq_true_iff.1 h
  refine ⟨?_, rest⟩
  rintro now rfl
  cases first

/-- A transaction other than a POLL answers a next state, and it keeps the configuration and raises no fault. -/
theorem exec_of_ne_poll {i : Instr} (h : ∀ now, i ≠ .poll now) (s : State) :
    ∃ t, exec i s = .next t ∧ t.cfg = s.cfg ∧ t.fault = s.fault := by
  cases i with
  | nop => exact ⟨_, rfl, rfl, rfl⟩
  | push b => exact ⟨_, rfl, pushByte_cfg b s, pushByte_fault b s⟩
  | poll now => exact absurd rfl (h now)
  | reset now => exact ⟨_, rfl, rfl, rfl⟩
  | pktWrite a d => exact ⟨_, rfl, rfl, rfl⟩
  | pktRead a d => exact ⟨_, rfl, rfl, rfl⟩
  | pktUnknown a d => exact ⟨_, rfl, rfl, rfl⟩

/-- A transaction that answers a next state runs, and the others run after it. -/
theorem runAll_cons {i : Instr} {is : List Instr} {s s' t : State} {outs : List Output}
    (legal : configCheck s.cfg = true) (clear : s.fault = none) (first : exec i s = .next s')
    (rest : runAll is s' = some (outs, t)) : runAll (i :: is) s = some (outputOf s' :: outs, t) := by
  simp [runAll, guardStep_open legal clear, first, rest]

/-- Settles O56: each transaction leaves a legal, unfaulted state, in which the next one runs. -/
theorem trafficNeverStopsTheBlock : Obligations.TrafficNeverStopsTheBlock := by
  intro is
  induction is with
  | nil => exact fun s _ clear _ => ⟨[], s, rfl, rfl, clear⟩
  | cons i is ih =>
    intro s legal clear quietBus
    obtain ⟨notPoll, restQuiet⟩ := noPoll_cons quietBus
    obtain ⟨s', ran, cfg, fault⟩ := exec_of_ne_poll notPoll s
    obtain ⟨outs, t, rest, count, unfaulted⟩ := ih s' (cfg ▸ legal) (fault.trans clear) restQuiet
    exact ⟨outputOf s' :: outs, t, runAll_cons legal clear ran rest, congrArg (· + 1) count, unfaulted⟩

end Sys2Proof.Machine

/-!
PROOFS. Encodings: which bits the operand functions read, what the decoder answers on the encoder's words, and what the
command words of the assembler's lines do (spec/30_encoding.md).
-/

namespace Sys2Proof.Machine

/-! ### Gathering and scattering bits -/

theorem getLsbD_bitWord (v : Word) (p i : Nat) : (bitWord v p).getLsbD i = (decide (i = 0) && v.getLsbD p) := by
  unfold bitWord
  split <;> simp [*]

/-- Bit `i` of EXTRACT is the value's bit at entry `i` of the table, and 0 where the table has no entry `i` (R67). -/
theorem getLsbD_extract (v : Word) (positions : List Nat) (i : Nat) :
    (extract v positions).getLsbD i = (decide (i < 32) && positions[i]?.any v.getLsbD) := by
  induction positions generalizing i with
  | nil => simp [extract]
  | cons p ps ih =>
    simp only [extract, BitVec.getLsbD_or, BitVec.getLsbD_shiftLeft, getLsbD_bitWord, ih]
    cases i with
    | zero => simp
    | succ i =>
      rcases Nat.lt_or_ge (i + 1) 32 with inWord | outside
      · simp [inWord, Nat.lt_of_succ_lt inWord]
      · simp [Nat.not_lt.2 outside]

/-- EXTRACT reads no bit but those at the table's entries. -/
theorem extract_congr {v w : Word} {positions : List Nat} (h : ∀ p ∈ positions, v.getLsbD p = w.getLsbD p) :
    extract v positions = extract w positions := by
  induction positions with
  | nil => rfl
  | cons p ps ih =>
    obtain ⟨first, later⟩ := List.forall_mem_cons.1 h
    simp only [extract, bitWord, first, ih later]

/-- Bit `p` of `deposit` is the value's first bit where `p` is the table's first entry, or comes from the other entries. -/
theorem getLsbD_deposit_cons (v : Word) (q : Nat) (ps : List Nat) {p : Nat} (h : p < 32) :
    (deposit v (q :: ps)).getLsbD p = (decide (p = q) && v.getLsbD 0 || (deposit (v >>> 1) ps).getLsbD p) := by
  simp only [deposit, BitVec.getLsbD_or, BitVec.getLsbD_shiftLeft, getLsbD_bitWord]
  grind

theorem getLsbD_deposit_of_notMem {positions : List Nat} {p : Nat} (h : p ∉ positions) (v : Word) :
    (deposit v positions).getLsbD p = false := by
  rcases Nat.lt_or_ge p 32 with inWord | outside
  · induction positions generalizing v with
    | nil => simp [deposit]
    | cons q ps ih =>
      obtain ⟨other, later⟩ := not_or.1 (mt List.mem_cons.2 h)
      simp [getLsbD_deposit_cons v q ps inWord, other, ih later]
  · exact BitVec.getLsbD_of_ge _ p outside

/-- The bit that `deposit` puts at entry `i` of a table with no repeated entry is bit `i` of the value (R11). -/
theorem getLsbD_deposit_getElem {positions : List Nat} (distinct : positions.Nodup) (v : Word) {i : Nat}
    (hi : i < positions.length) (inRange : positions[i] < 32) :
    (deposit v positions).getLsbD positions[i] = v.getLsbD i := by
  induction positions generalizing v i with
  | nil => cases hi
  | cons q ps ih =>
    obtain ⟨fresh, rest⟩ := List.nodup_cons.1 distinct
    rw [getLsbD_deposit_cons v q ps inRange]
    cases i with
    | zero =>
      simp only [List.getElem_cons_zero, getLsbD_deposit_of_notMem fresh, decide_true, Bool.true_and, Bool.or_false]
    | succ i =>
      have hi : i < ps.length := Nat.lt_of_succ_lt_succ hi
      have other : ps[i] ≠ q := fun e => fresh (e ▸ List.getElem_mem hi)
      simp [other, ih rest (v >>> 1) hi inRange, Nat.add_comm]

/-- EXTRACT undoes `deposit` over a table of distinct in-range entries, for a value that fits the table (R72). -/
theorem extract_deposit {positions : List Nat} (distinct : positions.Nodup) (inRange : ∀ p ∈ positions, p < 32) {v : Word}
    (fits : v.toNat < 2 ^ positions.length) : extract (deposit v positions) positions = v := by
  apply BitVec.eq_of_getLsbD_eq
  intro i hi
  rw [getLsbD_extract, decide_eq_true hi, Bool.true_and]
  rcases Nat.lt_or_ge i positions.length with inside | outside
  · rw [List.getElem?_eq_getElem inside]
    exact getLsbD_deposit_getElem distinct v inside (inRange _ (List.getElem_mem inside))
  · rw [List.getElem?_eq_none outside]
    exact (Nat.testBit_lt_two_pow (fits.trans_le (Nat.pow_le_pow_right Nat.two_pos outside))).symm

/-! ### The two registers of a packet word -/

@[simp] theorem regA_pktWord (ra rb : Word) : regA (pktWord ra rb) = ra := BitVec.extractLsb'_append_eq_right

@[simp] theorem regB_pktWord (ra rb : Word) : regB (pktWord ra rb) = rb := BitVec.extractLsb'_append_eq_left

theorem getLsbD_regA (P : Packet) (p : Nat) : (regA P).getLsbD p = (decide (p < 32) && P.getLsbD p) := by
  rw [regA, BitVec.getLsbD_extractLsb', Nat.zero_add]

theorem getLsbD_regB (P : Packet) (p : Nat) : (regB P).getLsbD p = (decide (p < 32) && P.getLsbD (32 + p)) :=
  BitVec.getLsbD_extractLsb' 32 32 P p

/-! ### The packet encoder and the packet decoder -/

/-- CONFIG-CHECK is the conjunction of its seven conditions (R68). -/
theorem configCheck_iff (c : Config) : configCheck c = true ↔
    c.addrPos.length = 13 ∧ c.dataPos.length = 8 ∧ (∀ p ∈ c.addrPos ++ c.dataPos, p < 32) ∧
    (c.d1Src < 32 ∧ c.weBit < 32 ∧ c.oeBit < 32) ∧ c.weBit ≠ c.oeBit ∧ c.windowTicks ≠ 0 ∧ c.ticksPerSecond ≠ 0 := by
  simp only [configCheck, positionsInRange, Bool.and_eq_true, decide_eq_true_eq, List.all_eq_true, List.forall_mem_append,
    List.forall_mem_cons, List.not_mem_nil, false_implies, implies_true, and_true, and_assoc, Nat.one_le_iff_ne_zero,
    ne_eq, ← BitVec.toNat_inj]
  rfl

/-- No two wires of a legal configuration meet: its tables have no repeated entry, and share none with the strobes or with the
D1 source. -/
structure WiresApart (c : Config) : Prop where
  legal : configCheck c = true
  addrDistinct : c.addrPos.Nodup
  dataDistinct : c.dataPos.Nodup
  d1Apart : c.d1Src ∉ c.addrPos
  weApart : c.weBit ∉ c.dataPos
  oeApart : c.oeBit ∉ c.dataPos

theorem wiresApart_hw : WiresApart Config.hw where
  legal := configCheck_hw
  addrDistinct := by decide
  dataDistinct := by decide
  d1Apart := by decide
  weApart := by decide
  oeApart := by decide

theorem setWidth_extract_deposit {n : Nat} {positions : List Nat} (distinct : positions.Nodup)
    (inRange : ∀ p ∈ positions, p < 32) (length : positions.length = n) (small : n ≤ 32) (x : BitVec n) :
    (extract (deposit (x.setWidth 32) positions) positions).setWidth n = x := by
  have fits : (x.setWidth 32).toNat < 2 ^ positions.length := by
    rw [length, BitVec.toNat_setWidth_of_le small]
    exact x.isLt
  rw [extract_deposit distinct inRange fits, BitVec.setWidth_setWidth_of_le x small, BitVec.setWidth_eq]

theorem addrOf_deposit {c : Config} (apart : WiresApart c) (a : Addr) :
    addrOf c (deposit (a.setWidth 32) c.addrPos) = a := by
  obtain ⟨length, -, inRange, -⟩ := (configCheck_iff c).1 apart.legal
  exact setWidth_extract_deposit apart.addrDistinct (List.forall_mem_append.1 inRange).1 length (by decide) a

theorem getLsbD_one_shiftLeft {n j : Nat} (k : Nat) (h : j < n) : (1#n <<< k).getLsbD j = decide (j = k) := by
  rw [← BitVec.twoPow_eq, BitVec.getLsbD_twoPow]
  grind

theorem getLsbD_strobes {c : Config} (op : Op) {p : Nat} (h : p < 32) :
    (strobes c op).getLsbD p =
      (decide (p = c.weBit) && decide (op ≠ .write) || decide (p = c.oeBit) && decide (op = .unknown)) := by
  cases op <;> simp [strobes, getLsbD_one_shiftLeft _ h]

/-- The data of a packet whose D1 bit is low are what EXTRACT gathers from `reg_b` (R71). -/
theorem dataOf_of_d1_low (c : Config) {a : Word} (b : Word) (low : a.getLsbD c.d1Src = false) :
    dataOf c a b = (extract b c.dataPos).setWidth 8 := by
  simp [dataOf, extractExtra, bitWord, low]

theorem dataOf_encodePacket {c : Config} (apart : WiresApart c) (op : Op) (a : Word) (d : Byte) :
    dataOf c (deposit a c.addrPos) (strobes c op ||| deposit (d.setWidth 32) c.dataPos) = d := by
  obtain ⟨-, length, inRange, -⟩ := (configCheck_iff c).1 apart.legal
  have dataInRange := (List.forall_mem_append.1 inRange).2
  have noStrobe : ∀ p ∈ c.dataPos, (strobes c op ||| deposit (d.setWidth 32) c.dataPos).getLsbD p =
      (deposit (d.setWidth 32) c.dataPos).getLsbD p := by
    intro p hp
    have we : p ≠ c.weBit := fun e => apart.weApart (e ▸ hp)
    have oe : p ≠ c.oeBit := fun e => apart.oeApart (e ▸ hp)
    rw [BitVec.getLsbD_or, getLsbD_strobes op (dataInRange p hp)]
    simp [we, oe]
  rw [dataOf_of_d1_low c _ (getLsbD_deposit_of_notMem apart.d1Apart a), extract_congr noStrobe]
  exact setWidth_extract_deposit apart.dataDistinct dataInRange length (by decide) d

theorem opOf_encodePacket {c : Config} (apart : WiresApart c) (op : Op) (d : Word) :
    opOf c (strobes c op ||| deposit d c.dataPos) = op := by
  obtain ⟨-, -, -, ⟨-, we, oe⟩, distinct, -⟩ := (configCheck_iff c).1 apart.legal
  simp only [opOf, BitVec.getLsbD_or, getLsbD_strobes op we, getLsbD_strobes op oe,
    getLsbD_deposit_of_notMem apart.weApart, getLsbD_deposit_of_notMem apart.oeApart]
  cases op <;> simp [distinct, distinct.symm]

/-- The packet decoder undoes the packet encoder where no two wires meet. -/
theorem decodePacket_encodePacket {c : Config} (apart : WiresApart c) (op : Op) (a : Addr) (d : Byte) :
    decodePacket c (encodePacket c op a d) = ⟨op, a, d⟩ := by
  simp only [decodePacket, encodePacket, regA_pktWord, regB_pktWord, addrOf_deposit apart, dataOf_encodePacket apart,
    opOf_encodePacket apart]

/-! ### Command words -/

/-- Settles O10: the four cases of the decoder's distinction by kind. -/
theorem commandKinds : Obligations.CommandKinds := by
  intro c C
  refine ⟨fun kind => ?_, fun kind => ?_, fun kind => ?_, fun kind => ?_⟩ <;> simp [decode, decodeCommand, kind]

/-! The transaction of each kind, its payload beside it. -/

theorem decodeCommand_nop (p : BitVec 64) : decodeCommand (0#2 ++ p) = .nop := by
  simp only [decodeCommand, BitVec.extractLsb'_append_eq_left, BitVec.reduceToNat]

theorem decodeCommand_push (p : BitVec 64) : decodeCommand (1#2 ++ p) = .push (p.extractLsb' 0 8) := by
  simp only [decodeCommand, BitVec.extractLsb'_append_eq_left, BitVec.reduceToNat,
    BitVec.extractLsb'_append_eq_of_add_le (xlo := p) (start := 0) (len := 8) (by decide)]

theorem decodeCommand_poll (p : BitVec 64) : decodeCommand (2#2 ++ p) = .poll p := by
  simp only [decodeCommand, BitVec.extractLsb'_append_eq_left, BitVec.extractLsb'_append_eq_right, BitVec.reduceToNat]

theorem decodeCommand_reset (p : BitVec 64) : decodeCommand (3#2 ++ p) = .reset p := by
  simp only [decodeCommand, BitVec.extractLsb'_append_eq_left, BitVec.extractLsb'_append_eq_right, BitVec.reduceToNat]

@[simp] theorem decodeCommand_nopWord : decodeCommand nopWord = .nop := decodeCommand_nop 0

@[simp] theorem decodeCommand_pushWord (b : Byte) : decodeCommand (pushWord b) = .push b := by
  rw [pushWord, decodeCommand_push, ← BitVec.setWidth_eq_extractLsb' (by decide),
    BitVec.setWidth_setWidth_of_le b (by decide), BitVec.setWidth_eq]

@[simp] theorem decodeCommand_pollWord (t : Time) : decodeCommand (pollWord t) = .poll t := decodeCommand_poll t

@[simp] theorem decodeCommand_resetWord (t : Time) : decodeCommand (resetWord t) = .reset t := decodeCommand_reset t

/-- The decoder undoes the encoder on every instruction, a packet class or a transaction. -/
theorem decode_encode {c : Config} (apart : WiresApart c) (i : Instr) : decode c (encode c i) = i := by
  cases i <;> simp [decode, encode, decodePacket_encodePacket apart, DecodedPacket.toInstr]

/-- Settles O17: this hardware's wiring is one of those whose wires do not meet. -/
theorem decodeEncodeRoundTrip : Obligations.DecodeEncodeRoundTrip :=
  ⟨fun _ legal addr data d1 we oe => decode_encode ⟨legal, addr, data, d1, we, oe⟩, decode_encode wiresApart_hw⟩

/-- Settles O18: seven of the words are decoded and the last is refused, each by evaluation. -/
theorem sampleWordsDecode : Obligations.SampleWordsDecode := by
  refine ⟨?_, ?_, ?_, ?_, ?_, ?_, ?_, ?_⟩ <;> decide

/-! ### The class of a packet word -/

theorem opOf_eq_write_iff (c : Config) (b : Word) : opOf c b = .write ↔ b.getLsbD c.weBit = false := by
  cases we : b.getLsbD c.weBit <;> cases oe : b.getLsbD c.oeBit <;> simp [opOf, we, oe]

theorem opOf_eq_read_iff (c : Config) (b : Word) :
    opOf c b = .read ↔ b.getLsbD c.weBit = true ∧ b.getLsbD c.oeBit = false := by
  cases we : b.getLsbD c.weBit <;> cases oe : b.getLsbD c.oeBit <;> simp [opOf, we, oe]

theorem opOf_eq_unknown_iff (c : Config) (b : Word) :
    opOf c b = .unknown ↔ b.getLsbD c.weBit = true ∧ b.getLsbD c.oeBit = true := by
  cases we : b.getLsbD c.weBit <;> cases oe : b.getLsbD c.oeBit <;> simp [opOf, we, oe]

theorem exists_decode_eq_pktWrite_iff (c : Config) (P : Packet) :
    (∃ a d, decode c (.pkt P) = .pktWrite a d) ↔ opOf c (regB P) = .write := by
  cases h : opOf c (regB P) <;> simp [decode, decodePacket, DecodedPacket.toInstr, h]

theorem exists_decode_eq_pktRead_iff (c : Config) (P : Packet) :
    (∃ a d, decode c (.pkt P) = .pktRead a d) ↔ opOf c (regB P) = .read := by
  cases h : opOf c (regB P) <;> simp [decode, decodePacket, DecodedPacket.toInstr, h]

theorem exists_decode_eq_pktUnknown_iff (c : Config) (P : Packet) :
    (∃ a d, decode c (.pkt P) = .pktUnknown a d) ↔ opOf c (regB P) = .unknown := by
  cases h : opOf c (regB P) <;> simp [decode, decodePacket, DecodedPacket.toInstr, h]

/-- A packet word is its two registers side by side (R37). -/
theorem pktWord_registers (P : Packet) : pktWord (regA P) (regB P) = P :=
  (BitVec.extractLsb'_append_extractLsb'_eq_extractLsb' rfl).trans BitVec.extractLsb'_eq_self

theorem strobes_of_strobeMask (x : BitVec 2) : (0#30 ++ x ++ 0#32 : Packet).extractLsb' 32 2 = x :=
  (BitVec.extractLsb'_append_eq_of_le (Nat.le_refl 32)).trans BitVec.extractLsb'_append_eq_right

/-- A packet word under a mask of its strobe bits shows the strobes of `reg_b` under that mask. -/
theorem and_strobeMask_eq_iff (P : Packet) (m k : BitVec 2) :
    P &&& (0#30 ++ m ++ 0#32) = 0#30 ++ k ++ 0#32 ↔ (regB P).extractLsb' 0 2 &&& m = k := by
  have shown := Laws.EncodedInItsRow.strobe_mask (regA P) (regB P) m
  rw [pktWord_registers] at shown
  rw [shown]
  refine ⟨fun h => ?_, fun h => by rw [h]⟩
  have := congrArg (BitVec.extractLsb' 32 2) h
  rwa [strobes_of_strobeMask, strobes_of_strobeMask] at this

/-- The match values of the opcode rows, read on the two strobe bits (R54). -/
theorem strobeMatch_iff (x : BitVec 2) :
    (x &&& 1#2 = 0#2 ↔ x.getLsbD 0 = false) ∧
    (x &&& 3#2 = 1#2 ↔ x.getLsbD 0 = true ∧ x.getLsbD 1 = false) ∧
    (x &&& 3#2 = 3#2 ↔ x.getLsbD 0 = true ∧ x.getLsbD 1 = true) := by
  revert x
  decide

/-- Settles O12: each row's mask and match is a condition on the strobe bits, and so is each class. -/
theorem packetClassByStrobes : Obligations.PacketClassByStrobes := by
  intro P
  obtain ⟨write, read, unknown⟩ := strobeMatch_iff ((regB P).extractLsb' 0 2)
  have we : ((regB P).extractLsb' 0 2).getLsbD 0 = (regB P).getLsbD Config.hw.weBit := by
    simp [Config.hw]
  have oe : ((regB P).extractLsb' 0 2).getLsbD 1 = (regB P).getLsbD Config.hw.oeBit := by
    simp [Config.hw]
  rw [we] at write read unknown
  rw [oe] at read unknown
  refine ⟨?_, ?_, ?_, fun weLow _ => ?_⟩
  · rw [exists_decode_eq_pktWrite_iff, opOf_eq_write_iff, ← write]
    exact and_strobeMask_eq_iff P 1#2 0#2
  · rw [exists_decode_eq_pktRead_iff, opOf_eq_read_iff, ← read]
    exact and_strobeMask_eq_iff P 3#2 1#2
  · rw [exists_decode_eq_pktUnknown_iff, opOf_eq_unknown_iff, ← unknown]
    exact and_strobeMask_eq_iff P 3#2 3#2
  · exact (opOf_eq_write_iff _ _).2 (by rw [getLsbD_regB]; exact weLow)

/-! ### The bits that the packet decoder reads -/

/-- The bits of a packet word that the operation is read from (R75). -/
def opBits (c : Config) : List Nat := [32 + c.weBit, 32 + c.oeBit]

/-- The bits of a packet word that the address is read from (R70). -/
def addressBits (c : Config) : List Nat := c.addrPos

/-- The bits of a packet word that the data are read from (R71): the D1 bit is of `reg_a`. -/
def dataBits (c : Config) : List Nat := c.d1Src :: c.dataPos.map (32 + ·)

section
variable {c : Config} {P Q : Packet}

theorem getLsbD_regB_congr {p : Nat} (h : P.getLsbD (32 + p) = Q.getLsbD (32 + p)) :
    (regB P).getLsbD p = (regB Q).getLsbD p := by
  rw [getLsbD_regB, getLsbD_regB, h]

theorem getLsbD_regA_congr {p : Nat} (h : P.getLsbD p = Q.getLsbD p) : (regA P).getLsbD p = (regA Q).getLsbD p := by
  rw [getLsbD_regA, getLsbD_regA, h]

theorem decodePacket_op_congr (h : ∀ k ∈ opBits c, P.getLsbD k = Q.getLsbD k) :
    (decodePacket c P).op = (decodePacket c Q).op := by
  have we := getLsbD_regB_congr (h (32 + c.weBit) (by simp [opBits]))
  have oe := getLsbD_regB_congr (h (32 + c.oeBit) (by simp [opBits]))
  simp only [decodePacket, opOf, we, oe]

theorem decodePacket_address_congr (h : ∀ k ∈ addressBits c, P.getLsbD k = Q.getLsbD k) :
    (decodePacket c P).address = (decodePacket c Q).address :=
  congrArg (BitVec.setWidth 13) (extract_congr fun p hp => getLsbD_regA_congr (h p hp))

theorem decodePacket_data_congr (h : ∀ k ∈ dataBits c, P.getLsbD k = Q.getLsbD k) :
    (decodePacket c P).data = (decodePacket c Q).data := by
  obtain ⟨d1, table⟩ := List.forall_mem_cons.1 h
  have gathered : extract (regB P) c.dataPos = extract (regB Q) c.dataPos :=
    extract_congr fun p hp => getLsbD_regB_congr (table (32 + p) (List.mem_map_of_mem hp))
  simp only [decodePacket, dataOf, extractExtra, bitWord, gathered, getLsbD_regA_congr d1]

end

/-- Settles O14: the 24 bits are those that the three fields are read from. -/
theorem ignoredPacketBits : Obligations.IgnoredPacketBits := by
  intro P Q agree
  have op := decodePacket_op_congr fun k hk => agree k ((by decide : opBits Config.hw ⊆ _) hk)
  have address := decodePacket_address_congr fun k hk => agree k ((by decide : addressBits Config.hw ⊆ _) hk)
  have data := decodePacket_data_congr fun k hk => agree k ((by decide : dataBits Config.hw ⊆ _) hk)
  simp only [decode, DecodedPacket.toInstr, op, address, data]

theorem getLsbD_flip_of_ne (P : Packet) {j k : Nat} (h : j ≠ k) : P.getLsbD j = (P ^^^ 1#64 <<< k).getLsbD j := by
  rcases Nat.lt_or_ge j 64 with inWord | outside
  · simp only [BitVec.getLsbD_xor, getLsbD_one_shiftLeft k inWord, h, decide_false, Bool.xor_false]
  · rw [BitVec.getLsbD_of_ge _ j outside, BitVec.getLsbD_of_ge _ j outside]

/-- Flipping a bit outside a list changes none of the list's bits. -/
theorem flip_agrees_off {bits : List Nat} {k : Nat} (h : k ∉ bits) (P : Packet) :
    ∀ j ∈ bits, P.getLsbD j = (P ^^^ 1#64 <<< k).getLsbD j :=
  fun _ hj => getLsbD_flip_of_ne P fun e => h (e ▸ hj)

/-- Settles O15: the lists of bits that the three fields are read from are disjoint, so a bit is in at most one. -/
theorem noBitFeedsTwoFields : Obligations.NoBitFeedsTwoFields := by
  intro P k d e
  have op : k ∉ opBits Config.hw → d.op = e.op := fun h => decodePacket_op_congr (flip_agrees_off h P)
  have address : k ∉ addressBits Config.hw → d.address = e.address :=
    fun h => decodePacket_address_congr (flip_agrees_off h P)
  have data : k ∉ dataBits Config.hw → d.data = e.data := fun h => decodePacket_data_congr (flip_agrees_off h P)
  have opData : ∀ j ∈ opBits Config.hw, j ∉ dataBits Config.hw := by decide
  have opAddress : ∀ j ∈ opBits Config.hw, j ∉ addressBits Config.hw := by decide
  have addressData : ∀ j ∈ addressBits Config.hw, j ∉ dataBits Config.hw := by decide
  by_cases inOp : k ∈ opBits Config.hw
  · exact .inr (.inr ⟨address (opAddress k inOp), data (opData k inOp)⟩)
  · by_cases inAddress : k ∈ addressBits Config.hw
    · exact .inr (.inl ⟨op inOp, data (addressData k inAddress)⟩)
    · exact .inl ⟨op inOp, address inAddress⟩

/-! ### The steps of a command word -/

/-- A step on an issued word is the guarded transaction of that word (R102). -/
theorem step_issueNext (C : Command) (s : State) : step (issueNext C s) = guardStep s (exec (decodeCommand C) s) := rfl

/-- Settles O11: a step reads a command word through the decoder alone. -/
theorem ignoredPayloadBits : Obligations.IgnoredPayloadBits := by
  refine ⟨fun C s legal clear => ?_, fun p q s => ?_, fun p q s low => ?_, fun c => rfl, fun c b => ?_⟩
  · obtain ⟨t, ran, -⟩ := configurationIsFixed.1 (decodeCommand C) s
    exact ⟨t, by rw [step_issueNext, guardStep_open legal clear, ran]⟩
  · rw [step_issueNext, step_issueNext, decodeCommand_nop, decodeCommand_nop]
  · rw [step_issueNext, step_issueNext, decodeCommand_push, decodeCommand_push, low]
  · rw [encode, pushWord, BitVec.setWidth_eq_append (by decide)]
    rfl

/-! ### The command words of the assembler's lines -/

/-- A command word as a number: its kind stands above the 64 bits of its payload (R58). -/
theorem kind_append_ofNat (k : BitVec 2) {n : Nat} (h : n < 2 ^ 64) :
    k ++ BitVec.ofNat 64 n = BitVec.ofNat 66 (k.toNat * 2 ^ 64 + n) := by
  apply BitVec.eq_of_toNat_eq
  rw [BitVec.toNat_append, BitVec.toNat_ofNat, BitVec.toNat_ofNat, Nat.mod_eq_of_lt h,
    ← Nat.shiftLeft_add_eq_or_of_lt h, Nat.shiftLeft_eq, Nat.mod_eq_of_lt]
  omega

theorem pushWord_ofNat {b : Nat} (h : b < 2 ^ 8) : pushWord (BitVec.ofNat 8 b) = BitVec.ofNat 66 (1 * 2 ^ 64 + b) := by
  rw [pushWord, BitVec.setWidth_ofNat_of_le_of_lt (by decide) h]
  exact kind_append_ofNat 1#2 (h.trans (by decide))

theorem pollWord_ofNat {t : Nat} (h : t < 2 ^ 64) : pollWord (BitVec.ofNat 64 t) = BitVec.ofNat 66 (2 * 2 ^ 64 + t) :=
  kind_append_ofNat 2#2 h

theorem resetWord_ofNat {t : Nat} (h : t < 2 ^ 64) : resetWord (BitVec.ofNat 64 t) = BitVec.ofNat 66 (3 * 2 ^ 64 + t) :=
  kind_append_ofNat 3#2 h

theorem map_pushWord_ofNat {bs : List Nat} (h : ∀ b ∈ bs, b < 2 ^ 8) :
    (bs.map (BitVec.ofNat 8)).map pushWord = bs.map fun b => BitVec.ofNat 66 (1 * 2 ^ 64 + b) := by
  rw [List.map_map]
  exact List.map_congr_left fun b hb => pushWord_ofNat (h b hb)

theorem map_pushWord (bs : List Byte) :
    bs.map pushWord = bs.map fun b => BitVec.ofNat 66 (1 * 2 ^ 64 + b.toNat) :=
  List.map_congr_left fun b _ => by rw [← pushWord_ofNat b.isLt, BitVec.ofNat_toNat, BitVec.setWidth_eq]

theorem extractLsb'_pktWord_low {k : Nat} (h : k + 8 ≤ 32) (ra rb : Word) :
    (pktWord ra rb).extractLsb' k 8 = ra.extractLsb' k 8 := BitVec.extractLsb'_append_eq_of_add_le h

theorem extractLsb'_pktWord_high {k : Nat} (h : 32 ≤ k) (ra rb : Word) :
    (pktWord ra rb).extractLsb' k 8 = rb.extractLsb' (k - 32) 8 := BitVec.extractLsb'_append_eq_of_le h

/-- The bytes of a packet word in arrival order are those of `reg_a`, then those of `reg_b` (R66). -/
theorem packetBytes_pktWord (ra rb : Word) : packetBytes (pktWord ra rb) =
    [ra.extractLsb' 0 8, ra.extractLsb' 8 8, ra.extractLsb' 16 8, ra.extractLsb' 24 8,
     rb.extractLsb' 0 8, rb.extractLsb' 8 8, rb.extractLsb' 16 8, rb.extractLsb' 24 8] := by
  simp [packetBytes, extractLsb'_pktWord_low, extractLsb'_pktWord_high]

/-- Settles O19, line form by line form: the operands are in range, and each word is its kind above its payload. -/
theorem assemblerExpansions : Obligations.AssemblerExpansions := by
  refine ⟨rfl, fun b hb => ?_, fun t ht => ?_, fun t ht => ?_, fun bs t hbs ht => ?_, fun ra rb => ?_⟩
  · have inRange : (AsmLine.push b).wellFormed = true := decide_eq_true hb
    simp only [assembleLine, inRange, if_true, pushWord_ofNat hb]
  · have inRange : (AsmLine.poll t).wellFormed = true := decide_eq_true ht
    simp only [assembleLine, inRange, if_true, pollWord_ofNat ht]
  · have inRange : (AsmLine.reset t).wellFormed = true := decide_eq_true ht
    simp only [assembleLine, inRange, if_true, resetWord_ofNat ht]
  · have inRange : (AsmLine.feed bs t).wellFormed = true := by
      simpa [AsmLine.wellFormed] using ⟨hbs, ht⟩
    simp only [assembleLine, inRange, if_true, feedCommands, map_pushWord_ofNat hbs, pollWord_ofNat ht]
  · have inRange : (AsmLine.packet ra.toNat rb.toNat).wellFormed = true := by
      simpa [AsmLine.wellFormed] using ⟨ra.isLt, rb.isLt⟩
    simp only [assembleLine, inRange, if_true, packetCommands, BitVec.ofNat_toNat, BitVec.setWidth_eq, packetBytes_pktWord,
      map_pushWord]

/-! ### The event record -/

/-- The event of a completing PUSH is that of its decoded packet, numbered from the state before (R61, R85). -/
theorem pushByte_event_of_full (b : Byte) {s : State} (full : s.carry.length = 7) :
    (pushByte b s).event =
      let d := decodePacket s.cfg (packetWord (s.carry ++ [b]))
      some ⟨d.op, seqFor d.op s, d.address, d.data⟩ := by
  rw [pushByte_full b full.ge]
  exact completePacket_event _ _

/-- Settles O34: the record of a completing PUSH class by class; the other transactions leave no event. -/
theorem eventRecordFields : Obligations.EventRecordFields := by
  refine ⟨?_, fun b s short => ?_, fun now s => ?_⟩
  · intro b s full d
    refine ⟨pushByte b s, ⟨d.op, seqFor d.op s, d.address, d.data⟩, rfl, pushByte_event_of_full b full, ?_⟩
    cases op : d.op <;> simp [evOp, evSeqValid, evSeq, evAddr, evData, opCode, seqFor, opValid]
  · exact ⟨pushByte b s, rfl, by simp [pushByte_short b short]⟩
  · exact ⟨⟨quiet s, rfl, rfl⟩, ⟨pollAt now s, rfl, pollAt_event now s⟩, ⟨resetAt now s, rfl, rfl⟩⟩

/-! ### The steps of a FEED -/

/-- The environment's transactions to come are `words`, whatever they were. -/
def withPending (words : List Command) (s : State) : State := { s with pending := words }

theorem outputOf_withPending (words : List Command) (s : State) : outputOf (withPending words s) = outputOf s := rfl

theorem completePacket_withPending (d : DecodedPacket) (words : List Command) (s : State) :
    completePacket d (withPending words s) = withPending words (completePacket d s) := by
  obtain ⟨op, address, data⟩ := d
  cases op <;> rfl

/-- PUSH does not read the transactions to come. -/
theorem pushByte_withPending (b : Byte) (words : List Command) (s : State) :
    pushByte b (withPending words s) = withPending words (pushByte b s) := by
  rcases Nat.lt_or_ge s.carry.length 7 with short | full
  · rw [pushByte_short b short, pushByte_short b (s := withPending words s) short]
    rfl
  · rw [pushByte_full b full, pushByte_full b (s := withPending words s) full]
    exact completePacket_withPending _ words (setCarry [] (countByte (quiet s)))

/-- POLL does not read the transactions to come. -/
theorem pollAt_withPending (now : Time) (words : List Command) (s : State) :
    pollAt now (withPending words s) = withPending words (pollAt now s) := by
  rcases pollAt_cases now s with ⟨early, e⟩ | ⟨late, due, e⟩ | ⟨late, notDue, e⟩ <;> rw [e]
  · exact if_pos early
  · exact (if_neg (Nat.not_lt.2 late)).trans (if_pos due)
  · exact (if_neg (Nat.not_lt.2 late)).trans (if_neg (ne_true_of_eq_false notDue))

/-- The step of a legal, unfaulted block on its next command word (R102). -/
theorem step_withPending {s : State} (legal : configCheck s.cfg = true) (clear : s.fault = none) (C : Command)
    (words : List Command) : step (withPending (C :: words) s) = exec (decodeCommand C) (withPending words s) :=
  guardStep_open (s := withPending (C :: words) s) legal clear _

theorem stepOutputs_succ {n : Nat} {s s' t : State} {outs : List Output} (first : step s = .next s')
    (later : stepOutputs n s' = some (outs, t)) : stepOutputs (n + 1) s = some (outputOf s' :: outs, t) := by
  simp [stepOutputs, first, later]

theorem stepOutputs_succ_cases {n : Nat} {s t : State} {outs : List Output}
    (h : stepOutputs (n + 1) s = some (outs, t)) :
    ∃ s' outs', step s = .next s' ∧ stepOutputs n s' = some (outs', t) := by
  rw [stepOutputs] at h
  split at h
  next s' first =>
    split at h
    next outs' t' later =>
      cases h
      exact ⟨s', outs', first, later⟩
    next => cases h
  next => cases h
  next => cases h

theorem core_run_succ (M : Host.Core) {n : Nat} {s s' : M.State} (h : M.step s = .next s') :
    M.run (n + 1) s = M.run n s' := by
  rw [Host.Core.run, h]

/-- Steps whose outputs are known are a run of the machine. -/
theorem run_of_stepOutputs {n : Nat} {s t : State} {outs : List Output} (h : stepOutputs n s = some (outs, t)) :
    Host.Core.run Sys2Proof.core n s = .next t := by
  induction n generalizing s outs with
  | zero =>
    cases h
    rfl
  | succ n ih =>
    obtain ⟨s', outs', first, later⟩ := stepOutputs_succ_cases h
    exact (core_run_succ Sys2Proof.core first).trans (ih later)

theorem feed_cons (b : Byte) (bs : List Byte) (now : Time) (s : State) :
    feed (b :: bs) now s =
      ((pushByte b s).event.toList ++ (feed bs now (pushByte b s)).1, (feed bs now (pushByte b s)).2) := rfl

/-- The words of a FEED run as `feed`: a step for each PUSH, with the event it drives and no record, then the POLL's (R107). -/
theorem stepOutputs_feedCommands (chunk : List Byte) (now : Time) (rest : List Command) {s : State}
    (legal : configCheck s.cfg = true) (clear : s.fault = none) :
    ∃ pushes : List Output,
      stepOutputs (chunk.length + 1) (withPending (feedCommands chunk now ++ rest) s) =
        some (pushes ++ [⟨none, (feed chunk now s).2.1⟩], withPending rest (feed chunk now s).2.2) ∧
      pushes.length = chunk.length ∧ outputEvents pushes = (feed chunk now s).1 ∧ outputStats pushes = [] := by
  induction chunk generalizing s with
  | nil =>
    have polled : step (withPending (pollWord now :: rest) s) = .next (withPending rest (pollAt now s)) := by
      rw [step_withPending legal clear, decodeCommand_pollWord, ← pollAt_withPending]
      rfl
    refine ⟨[], ?_, rfl, rfl, rfl⟩
    have out : outputOf (withPending rest (pollAt now s)) = ⟨none, (feed [] now s).2.1⟩ := by
      rw [outputOf_withPending, outputOf, pollAt_event]
      rfl
    rw [List.nil_append, ← out]
    exact stepOutputs_succ polled rfl
  | cons b bs ih =>
    have pushed : step (withPending (feedCommands (b :: bs) now ++ rest) s) =
        .next (withPending (feedCommands bs now ++ rest) (pushByte b s)) := by
      refine (step_withPending legal clear (pushWord b) _).trans ?_
      rw [decodeCommand_pushWord, ← pushByte_withPending]
      rfl
    obtain ⟨pushes, ran, count, events, records⟩ := ih (s := pushByte b s) (by simpa using legal) (by simpa using clear)
    refine ⟨outputOf (pushByte b s) :: pushes, (stepOutputs_succ pushed ran :), congrArg (· + 1) count, ?_, ?_⟩
    · rw [feed_cons, ← events]
      cases h : (pushByte b s).event <;> simp [outputEvents, outputOf, h]
    · simpa [outputStats, outputOf] using records

@[simp] theorem pushByte_totalBytes (b : Byte) (s : State) : (pushByte b s).totalBytes = s.totalBytes + 1 := by
  rcases pushByte_cases b s with ⟨-, e⟩ | ⟨-, e⟩ <;> simp [e]

/-- A PUSH counts a packet exactly where it drives an event (R90, R104). -/
theorem pushByte_totalPackets (b : Byte) (s : State) :
    (pushByte b s).totalPackets = s.totalPackets + BitVec.ofNat 64 (pushByte b s).event.toList.length := by
  rcases pushByte_cases b s with ⟨-, e⟩ | ⟨-, e⟩ <;> simp [e]

/-- Every byte of a chunk is counted, and every packet that it completes (R89, R90). -/
theorem pushChunk_counts (chunk : List Byte) (s : State) :
    (pushChunk chunk s).2.totalBytes = s.totalBytes + BitVec.ofNat 64 chunk.length ∧
    (pushChunk chunk s).2.totalPackets = s.totalPackets + BitVec.ofNat 64 (pushChunk chunk s).1.length := by
  induction chunk generalizing s with
  | nil => simp [pushChunk]
  | cons b bs ih =>
    obtain ⟨bytes, packets⟩ := ih (pushByte b s)
    rw [pushChunk_cons, bytes, packets, pushByte_totalBytes, pushByte_totalPackets, List.length_cons, List.length_append,
      BitVec.ofNat_add, BitVec.ofNat_add]
    constructor <;> ac_rfl

/-- A record that a POLL drives is that of the window it closed (R93). -/
theorem eq_windowRecord_of_pollAt_stats {now : Time} {s : State} {w : Stats} (h : (pollAt now s).stats = some w) :
    w = windowRecord now s := by
  rcases pollAt_cases now s with ⟨-, e⟩ | ⟨-, -, e⟩ | ⟨-, -, e⟩
  · simp [e] at h
  · rw [e] at h
    exact (Option.some.inj h).symm
  · simp [e] at h

/-- Settles O52: the events and the record are those of the FEED's steps, and the record shows the counts after its chunk. -/
theorem feedRunsPushesThenPoll : Obligations.FeedRunsPushesThenPoll := by
  intro chunk now rest s legal clear issued r
  obtain ⟨pushes, ran, count, events, records⟩ := stepOutputs_feedCommands chunk now rest legal clear
  rw [show withPending (feedCommands chunk now ++ rest) s = s by rw [← issued]; rfl] at ran
  refine ⟨run_of_stepOutputs ran, ⟨_, ran, ?_, ?_, ?_, ?_⟩, fun w driven => ?_⟩
  · simp [count]
  · rw [List.take_left' count, events]
  · rw [List.take_left' count, records]
  · rw [List.drop_left' count]
  · have closed : w = windowRecord now (pushChunk chunk s).2 := eq_windowRecord_of_pollAt_stats driven
    rw [closed]
    exact pushChunk_counts chunk s

end Sys2Proof.Machine

/-!
PROOFS. Bit permutation: the configuration check, what the four operand functions answer bit by bit, and when EXTRACT undoes
`deposit` (spec/40_bit_permutation.md).
-/

namespace Sys2Proof.Machine

/-- Settles O4: tables of one repeated entry meet the conditions on tables, and the other conditions do not read them. -/
theorem configCheckConditions : Obligations.ConfigCheckConditions := by
  refine ⟨configCheck_iff, fun c legal => ?_, configCheck_hw⟩
  obtain ⟨-, -, -, others⟩ := (configCheck_iff c).1 legal
  have inRange : ∀ p ∈ List.replicate 13 3 ++ List.replicate 8 3, p < 32 := by decide
  exact (configCheck_iff _).2 ⟨rfl, rfl, inRange, others⟩

/-! ### EXTRACT -/

theorem getLsbD_extract_getElem (v : Word) {positions : List Nat} (short : positions.length ≤ 32) {i : Nat}
    (h : i < positions.length) : (extract v positions).getLsbD i = v.getLsbD positions[i] := by
  rw [getLsbD_extract, List.getElem?_eq_getElem h, decide_eq_true (h.trans_le short)]
  rfl

theorem getLsbD_extract_of_length_le (v : Word) {positions : List Nat} {i : Nat} (h : positions.length ≤ i) :
    (extract v positions).getLsbD i = false := by
  rw [getLsbD_extract, List.getElem?_eq_none h]
  exact Bool.and_false _

theorem extract_zero (positions : List Nat) : extract 0#32 positions = 0#32 := by
  induction positions with
  | nil => rfl
  | cons p ps ih => simp [extract, bitWord, ih]

/-- EXTRACT of the all-ones word sets the bits below the table's length and no other (R67). -/
theorem toNat_extract_allOnes {positions : List Nat} (short : positions.length ≤ 32) (inRange : ∀ p ∈ positions, p < 32) :
    (extract (BitVec.allOnes 32) positions).toNat = 2 ^ positions.length - 1 := by
  apply Nat.eq_of_testBit_eq
  intro i
  rw [BitVec.testBit_toNat, Nat.testBit_two_pow_sub_one]
  rcases Nat.lt_or_ge i positions.length with inside | outside
  · rw [getLsbD_extract_getElem _ short inside, BitVec.getLsbD_allOnes, decide_eq_true inside]
    exact decide_eq_true (inRange _ (List.getElem_mem inside))
  · rw [getLsbD_extract_of_length_le _ outside, decide_eq_false (Nat.not_lt.2 outside)]

/-- Settles O20: the general bits, then the two corner values. -/
theorem extractBits : Obligations.ExtractBits :=
  ⟨fun v _ short => ⟨fun _ => getLsbD_extract_getElem v short, fun _ => getLsbD_extract_of_length_le v⟩, extract_zero,
    fun _ => toNat_extract_allOnes⟩

/-! ### EXTRACT-EXTRA -/

theorem getLsbD_extractExtra (v other : Word) (positions : List Nat) (src : Nat) {dst : Nat} (h : dst < 32) (i : Nat) :
    (extractExtra v positions other src dst).getLsbD i =
      ((extract v positions).getLsbD i || (decide (i = dst) && other.getLsbD src)) := by
  simp only [extractExtra, BitVec.getLsbD_or, BitVec.getLsbD_shiftLeft, getLsbD_bitWord]
  grind

/-- Settles O21: from the table's length on, EXTRACT gives 0 and `dst` is below. -/
theorem extractExtraBits : Obligations.ExtractExtraBits := by
  intro v other positions src dst short _ inside
  have bits := getLsbD_extractExtra v other positions src (inside.trans_le short)
  refine ⟨bits, fun i outside => ?_⟩
  have elsewhere : i ≠ dst := (inside.trans_le outside).ne'
  simp [bits, getLsbD_extract_of_length_le v outside, elsewhere]

/-! ### EXTRACT after `deposit` -/

theorem exists_getElem_eq_of_not_nodup {positions : List Nat} (repeated : ¬ positions.Nodup) :
    ∃ (i j : Nat) (hi : i < positions.length) (hj : j < positions.length), i < j ∧ positions[i] = positions[j] := by
  simpa [List.Nodup, List.pairwise_iff_getElem] using repeated

/-- Where two entries of a table are equal, EXTRACT fills both bits alike, so it never gives a word with only one of them. -/
theorem extract_ne_twoPow {positions : List Nat} (short : positions.length ≤ 32) {i j : Nat} (hi : i < positions.length)
    (hj : j < positions.length) (order : i < j) (same : positions[i] = positions[j]) (w : Word) :
    extract w positions ≠ BitVec.twoPow 32 i := by
  intro only
  have alike : (extract w positions).getLsbD i = (extract w positions).getLsbD j := by
    rw [getLsbD_extract_getElem w short hi, getLsbD_extract_getElem w short hj, same]
  simp [only, BitVec.getLsbD_twoPow, hi.trans_le short, order.ne] at alike

/-- Settles O22: with a repeated entry, the word of one of its two bits is no result of EXTRACT, whatever `deposit` gave. -/
theorem extractUndoesDeposit : Obligations.ExtractUndoesDeposit := by
  refine ⟨fun _ _ distinct inRange fits => extract_deposit distinct inRange fits, fun positions repeated _ short => ?_,
    wiresApart_hw.addrDistinct, wiresApart_hw.dataDistinct, by decide, by decide⟩
  obtain ⟨i, j, hi, hj, order, same⟩ := exists_getElem_eq_of_not_nodup repeated
  refine ⟨BitVec.twoPow 32 i, ?_, extract_ne_twoPow short hi hj order same _⟩
  rw [BitVec.toNat_twoPow_of_lt (hi.trans_le short)]
  exact Nat.pow_lt_pow_right Nat.one_lt_two hi

/-! ### ADDR and DATA -/

theorem getLsbD_addrOf (c : Config) (a : Word) (i : Nat) :
    (addrOf c a).getLsbD i = (decide (i < 13) && (extract a c.addrPos).getLsbD i) :=
  BitVec.getLsbD_setWidth ..

/-- Settles O23: each address bit is the bit that EXTRACT reads at the table's entry; `reg_b` is no argument of ADDR. -/
theorem addressBits_hw : Obligations.AddressBits := by
  refine ⟨fun a => ?_, fun a b b' => ?_, by decide, by decide⟩
  · simp only [getLsbD_addrOf, getLsbD_extract]
    simp [Config.hw]
  · simp [decodePacket]

theorem getLsbD_dataOf (c : Config) (a b : Word) (i : Nat) : (dataOf c a b).getLsbD i =
    (decide (i < 8) && ((extract b c.dataPos).getLsbD i || (decide (i = 0) && a.getLsbD c.d1Src))) := by
  rw [dataOf, BitVec.getLsbD_setWidth, getLsbD_extractExtra b a c.dataPos c.d1Src (by decide)]

/-- DATA reads no bit of `reg_b` but those at the entries of `DATA_POS`. -/
theorem dataOf_congr (c : Config) (a : Word) {b b' : Word} (h : ∀ p ∈ c.dataPos, b.getLsbD p = b'.getLsbD p) :
    dataOf c a b = dataOf c a b' := by
  rw [dataOf, dataOf, extractExtra, extractExtra, extract_congr h]

/-- Settles O24: each data bit is the bit that EXTRACT-EXTRA reads, and no entry of `DATA_POS` is one of the strobes' bits 0
and 1. -/
theorem dataBits_hw : Obligations.DataBits := by
  refine ⟨fun a b => ?_, fun a b m => dataOf_congr _ a fun p hp => ?_, by decide, by decide, by decide⟩
  · simp only [getLsbD_dataOf, getLsbD_extract]
    simp [Config.hw]
  · have aboveStrobes : 2 ≤ p := (by decide : ∀ p ∈ Config.hw.dataPos, 2 ≤ p) p hp
    have noStrobe : (m.setWidth 32).getLsbD p = false := by simp [BitVec.getLsbD_of_ge m p aboveStrobes]
    rw [BitVec.getLsbD_xor, noStrobe, Bool.xor_false]

end Sys2Proof.Machine

/-!
PROOFS. The packet decoder: the class, address and data of a packet word, and what a packet of each class does, run by itself
and on the PUSH that completes it (spec/41_packet_decoder.md).
-/

namespace Sys2Proof.Machine

/-! ### DECODE -/

/-- Settles O13: a class is a condition on the strobes, and the operation is read from bits 32 and 33 alone. -/
theorem strobeRule : Obligations.StrobeRule := by
  refine ⟨fun c b => ⟨(opOf_eq_write_iff c b).2, fun we oe => (opOf_eq_read_iff c b).2 ⟨we, oe⟩,
    fun we oe => (opOf_eq_unknown_iff c b).2 ⟨we, oe⟩⟩, fun P Q we oe => decodePacket_op_congr ?_, by decide, by decide⟩
  simpa [opBits, Config.hw] using ⟨we, oe⟩

theorem decodePacket_pktWord (c : Config) (a b : Word) :
    decodePacket c (pktWord a b) = ⟨opOf c b, addrOf c a, dataOf c a b⟩ := by
  rw [decodePacket, regA_pktWord, regB_pktWord]

/-- Settles O25: each class carries the address and the data of its packet. -/
theorem decodePacketFields : Obligations.DecodePacketFields := by
  refine ⟨decodePacket_pktWord, fun c P => ?_, by decide, by decide⟩
  cases op : (decodePacket c P).op <;> simp [decode, DecodedPacket.toInstr, op]

/-! ### The class of a packet word on this hardware -/

section
variable {P : Packet}

theorem opOf_hw_write (we : P.getLsbD 32 = false) : opOf Config.hw (regB P) = .write :=
  (opOf_eq_write_iff _ _).2 ((getLsbD_regB P 0).trans we)

theorem opOf_hw_read (we : P.getLsbD 32 = true) (oe : P.getLsbD 33 = false) : opOf Config.hw (regB P) = .read :=
  (opOf_eq_read_iff _ _).2 ⟨(getLsbD_regB P 0).trans we, (getLsbD_regB P 1).trans oe⟩

theorem opOf_hw_unknown (we : P.getLsbD 32 = true) (oe : P.getLsbD 33 = true) : opOf Config.hw (regB P) = .unknown :=
  (opOf_eq_unknown_iff _ _).2 ⟨(getLsbD_regB P 0).trans we, (getLsbD_regB P 1).trans oe⟩

theorem decodePacket_of_opOf {c : Config} {op : Op} (h : opOf c (regB P) = op) :
    decodePacket c P = ⟨op, addrOf c (regA P), dataOf c (regA P) (regB P)⟩ := by
  rw [decodePacket, h]

theorem decode_pkt_of_opOf {c : Config} {op : Op} (h : opOf c (regB P) = op) :
    decode c (.pkt P) = DecodedPacket.toInstr ⟨op, addrOf c (regA P), dataOf c (regA P) (regB P)⟩ :=
  congrArg DecodedPacket.toInstr (decodePacket_of_opOf h)

end

/-! ### A packet class run by itself -/

/-- Settles O26: WE low selects WRITE, and the class completes its packet in a quiet state. -/
theorem pktWriteResult : Obligations.PktWriteResult :=
  ⟨fun _ we => decode_pkt_of_opOf (opOf_hw_write we), fun _ _ _ => rfl⟩

/-- Settles O27: WE high and OE low select READ, and the class completes its packet in a quiet state. -/
theorem pktReadResult : Obligations.PktReadResult :=
  ⟨fun _ we oe => decode_pkt_of_opOf (opOf_hw_read we oe), fun _ _ _ => rfl⟩

/-- Settles O28: both strobes high select UNKNOWN, and the class completes its packet in a quiet state. -/
theorem pktUnknownResult : Obligations.PktUnknownResult :=
  ⟨fun _ we oe => decode_pkt_of_opOf (opOf_hw_unknown we oe), fun _ _ _ => rfl⟩

/-! ### A packet class on the PUSH that completes it -/

/-- Settles O60: the strobes select the class, `PacketClassByStrobes` gives its row's mask and match, and PUSH completes a
packet of that class. -/
theorem packetClassesRunByPush : Obligations.PacketClassesRunByPush := by
  refine ⟨?_, by decide, by decide, fun a => ⟨?_, ?_⟩, by decide⟩
  · intro b s cfg full P a d
    obtain ⟨writeRow, readRow, unknownRow, -⟩ := packetClassByStrobes P
    have completed {op : Op} (h : opOf Config.hw (regB P) = op) :
        pushByte b s = completePacket ⟨op, a, d⟩ (setCarry [] (countByte (quiet s))) := by
      rw [pushByte_full b full.ge, cfg, decodePacket_of_opOf h]
    refine ⟨pushByte b s, rfl, pushByte_fault b s, by simp [completed rfl], fun we => ?_, fun we oe => ?_, fun we oe => ?_⟩
    · have op := opOf_hw_write we
      exact ⟨writeRow.2 ⟨a, d, decode_pkt_of_opOf op⟩, by simp [completed op, seqFor, opValid]⟩
    · have op := opOf_hw_read we oe
      exact ⟨readRow.2 ⟨a, d, decode_pkt_of_opOf op⟩, by simp [completed op, seqFor, opValid]⟩
    · have op := opOf_hw_unknown we oe
      exact ⟨unknownRow.2 ⟨a, d, decode_pkt_of_opOf op⟩, by simp [completed op, seqFor, opValid]⟩
  · rw [decodePacket_pktWord]
    exact (opOf_eq_read_iff Config.hw 5).2 (by decide)
  · rw [decodePacket_pktWord]
    exact (dataBits_hw.1 a 5).1.trans (by simp)

end Sys2Proof.Machine

/-!
PROOFS. The stream aligner: what ACCEPT-BYTE leaves of a PUSH, the run flag, what a chunk's packets do to the state, and
the sequence numbers of a run (spec/42_stream_aligner.md).
-/

namespace Sys2Proof.Machine

/-! ### One byte -/

/-- Settles O32: the carry and the event's packet are those of ACCEPT-BYTE, below 7 bytes and at 7. -/
theorem acceptByteResult : Obligations.AcceptByteResult := by
  intro b s bound
  refine ⟨pushByte b s, rfl, fun short => ?_, fun full => ?_, ?_⟩
  · simp [pushByte_short b short]
  · simp [pushByte_carry, pushByte_event_map, acceptByte_full b full.ge]
  · rcases pushByte_cases b s with ⟨short, e⟩ | ⟨-, e⟩
    · simpa [e] using Nat.succ_le_of_lt short
    · simp [e]

/-! ### The run flag -/

theorem opValid_iff (op : Op) : opValid op = true ↔ op = .write ∨ op = .read := by
  cases op <;> simp [opValid]

/-- Settles O33: a completed packet sets the flag to its validity, and a buffered byte leaves it. -/
theorem runFlagTable : Obligations.RunFlagTable := by
  refine ⟨fun b s full => ⟨pushByte b s, rfl, ?_⟩, fun b s short => ⟨pushByte b s, rfl, ?_⟩,
    fun now s => ⟨resetAt now s, rfl, rfl⟩⟩
  · rw [pushByte_full b full.ge, completePacket_runActive]
    exact opValid_iff _
  · simp [pushByte_short b short]

/-! ### The packets of a chunk -/

theorem decodedPackets_append (c : Config) {p : List Byte} (h : p.length = 8) (rest : List Byte) :
    decodedPackets c (p ++ rest) = decodePacket c (packetWord p) :: decodedPackets c rest := by
  rw [decodedPackets, wholePackets_append h]
  rfl

theorem numberedEvents_cons (s : State) (d : DecodedPacket) (ds : List DecodedPacket) :
    numberedEvents s.seqNext (d :: ds) =
      ⟨d.op, seqFor d.op s, d.address, d.data⟩ :: numberedEvents (completePacket d s).seqNext ds := by
  cases valid : opValid d.op <;> simp [numberedEvents, seqFor, valid]

theorem packetCount_cons (test : Op → Bool) (d : DecodedPacket) (ds : List DecodedPacket) :
    packetCount test (d :: ds) = (if test d.op then 1 else 0) + packetCount test ds := by
  rw [packetCount, List.countP_cons, BitVec.ofNat_add, BitVec.add_comm]
  cases test d.op <;> rfl

theorem runFlagAfter_cons (before : Bool) (d : DecodedPacket) (ds : List DecodedPacket) :
    runFlagAfter before (d :: ds) = runFlagAfter (opValid d.op) ds := by
  cases ds <;> simp [runFlagAfter, List.getLast?_cons]

/-- The events and the final state in `r` are those of completing the packets `ds` in order from `s` (R84, R85, R90). -/
structure PacketsCompleted (ds : List DecodedPacket) (s : State) (r : List Event × State) : Prop where
  events : r.1 = numberedEvents s.seqNext ds
  runActive : r.2.runActive = runFlagAfter s.runActive ds
  seqNext : r.2.seqNext = s.seqNext + packetCount (fun op => op != .unknown) ds
  validPackets : r.2.validPackets = s.validPackets + packetCount (fun op => op != .unknown) ds
  readCount : r.2.readCount = s.readCount + packetCount (fun op => op == .read) ds
  writeCount : r.2.writeCount = s.writeCount + packetCount (fun op => op == .write) ds
  windowStart : r.2.windowStart = s.windowStart
  cfg : r.2.cfg = s.cfg
  fault : r.2.fault = s.fault
  pending : r.2.pending = s.pending

theorem PacketsCompleted.nil (s : State) : PacketsCompleted [] s ([], s) := by
  constructor <;> simp [numberedEvents, runFlagAfter, packetCount]

/-- The byte counter, the carry and the outputs of the step before play no part in what packets do. -/
theorem PacketsCompleted.of_bytes {ds : List DecodedPacket} {carry : List Byte} {s : State} {r : List Event × State}
    (h : PacketsCompleted ds (setCarry carry (countByte (quiet s))) r) : PacketsCompleted ds s r := { h with }

theorem PacketsCompleted.cons {d : DecodedPacket} {ds : List DecodedPacket} {s : State} {r : List Event × State}
    (h : PacketsCompleted ds (completePacket d s) r) :
    PacketsCompleted (d :: ds) s (⟨d.op, seqFor d.op s, d.address, d.data⟩ :: r.1, r.2) where
  events := by rw [numberedEvents_cons, h.events]
  runActive := by rw [runFlagAfter_cons, h.runActive, completePacket_runActive]
  seqNext := by
    rw [packetCount_cons, h.seqNext, completePacket_seqNext]
    cases d.op <;> simp [opValid, BitVec.add_assoc]
  validPackets := by
    rw [packetCount_cons, h.validPackets, completePacket_validPackets]
    cases d.op <;> simp [opValid, BitVec.add_assoc]
  readCount := by
    rw [packetCount_cons, h.readCount, completePacket_readCount]
    cases d.op <;> simp [BitVec.add_assoc]
  writeCount := by
    rw [packetCount_cons, h.writeCount, completePacket_writeCount]
    cases d.op <;> simp [BitVec.add_assoc]
  windowStart := by rw [h.windowStart, completePacket_windowStart]
  cfg := by rw [h.cfg, completePacket_cfg]
  fault := by rw [h.fault, completePacket_fault]
  pending := by rw [h.pending, completePacket_pending]

/-- A chunk completes the packets of the carried bytes and its own, in order. -/
theorem pushChunk_packetsCompleted (chunk : List Byte) (s : State) (bound : s.carry.length ≤ 7) :
    PacketsCompleted (decodedPackets s.cfg (s.carry ++ chunk)) s (pushChunk chunk s) := by
  induction chunk generalizing s with
  | nil =>
    rw [List.append_nil, decodedPackets, wholePackets_short (Nat.lt_succ_of_le bound)]
    exact .nil s
  | cons b bs ih =>
    rw [List.append_cons, pushChunk_cons]
    rcases pushByte_cases b s with ⟨short, e⟩ | ⟨full, e⟩
    · have rest := ih (pushByte b s) (by simpa [e] using short)
      rw [e] at rest ⊢
      exact rest.of_bytes
    · have rest := ih (pushByte b s) (by simp [e])
      have eight : (s.carry ++ [b]).length = 8 := by
        rw [List.length_append, List.length_singleton]
        omega
      rw [decodedPackets_append s.cfg eight]
      generalize s.carry ++ [b] = p at e
      rw [e, completePacket_cfg, completePacket_carry] at rest
      rw [e, completePacket_event]
      exact rest.cons.of_bytes

/-! ### Chunk boundaries -/

theorem pushChunk_append (c c' : List Byte) (s : State) :
    pushChunk (c ++ c') s =
      ((pushChunk c s).1 ++ (pushChunk c' (pushChunk c s).2).1, (pushChunk c' (pushChunk c s).2).2) := by
  induction c generalizing s with
  | nil => rfl
  | cons b bs ih => rw [List.cons_append, pushChunk_cons, pushChunk_cons, ih, List.append_assoc]

/-- Chunks pushed one after another do what their bytes do as one chunk (R83). -/
theorem pushChunks_eq_pushChunk_flatten (cs : List (List Byte)) (s : State) :
    pushChunks cs s = pushChunk cs.flatten s := by
  induction cs generalizing s with
  | nil => rfl
  | cons c cs ih =>
    rw [List.flatten_cons, pushChunk_append, ← ih]
    rfl

/-- Settles O51: the chunks do what one chunk of their bytes does, and that completes the packets of the joined bytes, in order. -/
theorem chunkBoundariesDoNotMatter : Obligations.ChunkBoundariesDoNotMatter := by
  refine ⟨fun cs s bound => ?_, fun cs ds s _ same => ?_⟩
  · simp only [pushChunks_eq_pushChunk_flatten, List.length_append]
    have done := pushChunk_packetsCompleted cs.flatten s bound
    obtain ⟨bytes, packets⟩ := pushChunk_counts cs.flatten s
    obtain ⟨count, -, carry, -⟩ := chunkPacketsByCount cs.flatten s bound
    rw [count] at packets carry
    exact ⟨done.events, carry, done.runActive, done.seqNext, bytes, packets, done.validPackets, done.readCount,
      done.writeCount, done.windowStart, done.cfg, done.fault, done.pending⟩
  · rw [pushChunks_eq_pushChunk_flatten, pushChunks_eq_pushChunk_flatten, same]

/-! ### Sequence numbers -/

/-- The first `k` sequence numbers from `n` on. -/
def numbersFrom (n : Count) (k : Nat) : List Count := (List.range k).map fun i => n + BitVec.ofNat 64 i

theorem numbersFrom_succ (n : Count) (k : Nat) : numbersFrom n (k + 1) = n :: numbersFrom (n + 1) k := by
  simp only [numbersFrom, List.range_succ_eq_map, List.map_cons, List.map_map, BitVec.add_zero]
  congr 2
  funext i
  simp [BitVec.ofNat_add, BitVec.add_assoc, BitVec.add_comm 1#64]

/-- No sequence number repeats before the counter wraps (R86). -/
theorem numbersFrom_nodup (n : Count) {k : Nat} (h : k ≤ 2 ^ 64) : (numbersFrom n k).Nodup := by
  refine List.nodup_range.map_on fun i hi j hj same => ?_
  rw [List.mem_range] at hi hj
  have e := congrArg BitVec.toNat ((BitVec.add_right_inj n).1 same)
  rwa [BitVec.toNat_ofNat, BitVec.toNat_ofNat, Nat.mod_eq_of_lt (by omega), Nat.mod_eq_of_lt (by omega)] at e

/-- The transaction that led from `s` to `t` drove no number and took none, or drove the next one and took it; and an event
it drove has no number exactly where it is Unknown (R85). -/
structure NumberedStep (s t : State) : Prop where
  taken : (t.event.bind Event.seq = none ∧ t.seqNext = s.seqNext) ∨
    (t.event.bind Event.seq = some s.seqNext ∧ t.seqNext = s.seqNext + 1)
  unknown : ∀ e, t.event = some e → (e.seq = none ↔ e.op = .unknown)

theorem numberedStep_of_no_event {s t : State} (event : t.event = none) (seqNext : t.seqNext = s.seqNext) :
    NumberedStep s t where
  taken := .inl ⟨by simp [event], seqNext⟩
  unknown := by simp [event]

theorem numberedStep_completePacket (d : DecodedPacket) {s s' : State} (h : s'.seqNext = s.seqNext) :
    NumberedStep s (completePacket d s') where
  taken := by cases op : d.op <;> simp [seqFor, opValid, op, h]
  unknown := by cases op : d.op <;> simp [seqFor, opValid, op]

theorem numberedStep_pushByte (b : Byte) (s : State) : NumberedStep s (pushByte b s) := by
  rcases pushByte_cases b s with ⟨-, e⟩ | ⟨-, e⟩ <;> rw [e]
  · exact numberedStep_of_no_event rfl rfl
  · exact numberedStep_completePacket _ rfl

theorem pollAt_seqNext (now : Time) (s : State) : (pollAt now s).seqNext = s.seqNext := by
  rcases pollAt_cases now s with ⟨-, e⟩ | ⟨-, -, e⟩ | ⟨-, -, e⟩ <;> simp [e]

/-- Every transaction but a RESET numbers its event, if it drives one, from the sequence counter. -/
theorem numberedStep_of_ne_reset {i : Instr} (h : ∀ now, i ≠ .reset now) {s t : State} (ran : exec i s = .next t) :
    NumberedStep s t := by
  cases i <;> cases ran
  case nop => exact numberedStep_of_no_event rfl rfl
  case push b => exact numberedStep_pushByte b s
  case poll now => exact numberedStep_of_no_event (pollAt_event now s) (pollAt_seqNext now s)
  case reset now => exact absurd rfl (h now)
  case pktWrite a d => exact numberedStep_completePacket _ rfl
  case pktRead a d => exact numberedStep_completePacket _ rfl
  case pktUnknown a d => exact numberedStep_completePacket _ rfl

theorem noReset_cons {i : Instr} {is : List Instr} (h : noReset (i :: is) = true) :
    (∀ now, i ≠ .reset now) ∧ noReset is = true := by
  obtain ⟨first, rest⟩ := Bool.and_eq_true_iff.1 h
  refine ⟨?_, rest⟩
  rintro now rfl
  cases first

/-- A run of a list with a first transaction is that transaction's step and a run of the others. -/
theorem runAll_cons_cases {i : Instr} {is : List Instr} {s t : State} {outs : List Output}
    (h : runAll (i :: is) s = some (outs, t)) :
    ∃ s' outs', exec i s = .next s' ∧ runAll is s' = some (outs', t) ∧ outs = outputOf s' :: outs' := by
  rw [runAll] at h
  split at h
  next s' first =>
    split at h
    next outs' t' later =>
      cases h
      exact ⟨s', outs', (guardStep_next first).2.2, later, rfl⟩
    next => cases h
  next => cases h
  next => cases h

theorem outputSeqs_cons (s : State) (outs : List Output) :
    outputSeqs (outputOf s :: outs) = (s.event.bind Event.seq).toList ++ outputSeqs outs := by
  cases h : s.event.bind Event.seq <;> simp [outputSeqs, outputOf, h]

/-- Without a RESET the numbers driven are consecutive from the sequence counter, which moves by as many, and only Unknown
events go without one (R85, R86). -/
theorem runAll_numbers {is : List Instr} {s t : State} {outs : List Output} (noResets : noReset is = true)
    (ran : runAll is s = some (outs, t)) :
    outputSeqs outs = numbersFrom s.seqNext (outputSeqs outs).length ∧
    t.seqNext = s.seqNext + BitVec.ofNat 64 (outputSeqs outs).length ∧
    ∀ o ∈ outs, ∀ e, o.event = some e → (e.seq = none ↔ e.op = .unknown) := by
  induction is generalizing s outs with
  | nil =>
    cases ran
    simp [outputSeqs, numbersFrom]
  | cons i is ih =>
    obtain ⟨notReset, restNoResets⟩ := noReset_cons noResets
    obtain ⟨s', outs', first, later, rfl⟩ := runAll_cons_cases ran
    obtain ⟨taken, unknown⟩ := numberedStep_of_ne_reset notReset first
    obtain ⟨numbers, counter, unknowns⟩ := ih restNoResets later
    rw [outputSeqs_cons, ← and_assoc]
    refine ⟨?_, List.forall_mem_cons.2 ⟨unknown, unknowns⟩⟩
    rcases taken with ⟨noNumber, same⟩ | ⟨number, moved⟩
    · rw [same] at numbers counter
      rw [noNumber]
      exact ⟨numbers, counter⟩
    · rw [moved] at numbers counter
      rw [number, Option.toList_some, List.singleton_append, List.length_cons, numbersFrom_succ, ← numbers, counter,
        BitVec.ofNat_add, BitVec.add_assoc, BitVec.add_comm 1]
      exact ⟨rfl, rfl⟩

/-- Settles O53: RESET drives no event and sets the counter to `SEQ_BASE`, from which the rest of the run counts. -/
theorem sequenceNumbersConsecutive : Obligations.SequenceNumbersConsecutive := by
  intro now is s t outs noResets ran
  obtain ⟨s', outs', first, later, rfl⟩ := runAll_cons_cases ran
  cases first
  obtain ⟨numbers, counter, unknowns⟩ := runAll_numbers noResets later
  rw [outputSeqs_cons]
  refine ⟨numbers, counter, fun noWrap => ?_, List.forall_mem_cons.2 ⟨?_, unknowns⟩⟩
  · exact numbers ▸ numbersFrom_nodup s.cfg.seqBase noWrap
  · simp [outputOf]

end Sys2Proof.Machine

/-!
PROOFS. The rate tracker: what a POLL does at each time, what every transaction but a RESET does to the windows and their
counts, the counters' exact values, and the metrics of a record (spec/43_rate_tracker.md).
-/

namespace Sys2Proof.Machine

/-! ### A POLL early, not due and due -/

section
variable {now : Time} {s : State}

theorem pollAt_early (early : now.toNat < s.windowStart.toNat) :
    pollAt now s = raiseFault (.timeRegression now s.windowStart) (quiet s) := if_pos early

theorem pollAt_notDue (late : s.windowStart.toNat ≤ now.toNat)
    (notDue : now.toNat < s.windowStart.toNat + s.cfg.windowTicks.toNat) : pollAt now s = quiet s := by
  have tooShort : windowDue now s ≠ true := mt of_decide_eq_true (by omega)
  exact (if_neg (Nat.not_lt.2 late)).trans (if_neg tooShort)

theorem pollAt_due (due : s.windowStart.toNat + s.cfg.windowTicks.toNat ≤ now.toNat) :
    pollAt now s = closeWindow now (quiet s) := by
  have spans : windowDue now s = true := decide_eq_true (by omega)
  exact (if_neg (by omega)).trans (if_pos spans)

end

/-- Settles O35: the POLL that is not due leaves a quiet state. -/
theorem pollNotDueResult : Obligations.PollNotDueResult :=
  fun _ _ late notDue => congrArg Host.Outcome.next (pollAt_notDue late notDue)

/-- Settles O36: the due POLL leaves the closed window's record and a fresh window. -/
theorem pollClosesDueWindow : Obligations.PollClosesDueWindow :=
  fun _ _ due => congrArg Host.Outcome.next (pollAt_due due)

/-- Settles O37: the early POLL leaves a quiet state with the mark. -/
theorem pollTimeRegressionFaults : Obligations.PollTimeRegressionFaults :=
  fun _ _ _ early => congrArg Host.Outcome.next (pollAt_early early)

/-! ### The span of a record -/

theorem one_le_windowTicks {c : Config} (legal : configCheck c = true) : 1 ≤ c.windowTicks.toNat := by
  obtain ⟨-, -, -, -, -, positive, -⟩ := (configCheck_iff c).1 legal
  exact BitVec.toNat_pos_of_ne_zero positive

/-- Settles O57: a record is that of a due window, and a legal duration is positive, so the end is above the start. -/
theorem recordSpansWindow : Obligations.RecordSpansWindow := by
  intro now s t r legal ran driven
  cases ran
  have positive := one_le_windowTicks legal
  have spans : s.cfg.windowTicks.toNat ≤ now.toNat - s.windowStart.toNat :=
    of_decide_eq_true (windowDue_of_pollAt_stats (by simp [driven]))
  cases eq_windowRecord_of_pollAt_stats driven
  refine ⟨?_, spans, positive⟩
  simp only [windowRecord]
  omega

/-! ### The derived metrics -/

/-- Settles O58: the tick rate and the elapsed time are not 0, so each quotient of the rule can be multiplied out. -/
theorem derivedMetrics : Obligations.DerivedMetrics := by
  intro tps r rate elapsed
  have rate0 : (tps : Rat) ≠ 0 := Nat.cast_ne_zero.2 rate.ne'
  have elapsed0 : (elapsedTicks r : Rat) ≠ 0 := Nat.cast_ne_zero.2 elapsed.ne'
  refine ⟨?_, fun valid => ?_, fun noValid => ?_⟩
  · simp only [throughputMBps, elapsedSeconds, mib]
    field_simp
    norm_num
  · have packets := BitVec.toNat_pos_of_ne_zero valid
    have packets0 : (r.validPackets.toNat : Rat) ≠ 0 := Nat.cast_ne_zero.2 packets.ne'
    rw [meanInterEventUs, if_pos packets, elapsedSeconds]
    field_simp
  · simp [meanInterEventUs, noValid]

/-! ### Windows and traffic in a run without a RESET -/

theorem outputStats_cons (s : State) (outs : List Output) :
    outputStats (outputOf s :: outs) = s.stats.toList ++ outputStats outs := by
  cases h : s.stats <;> simp [outputStats, outputOf, h]

theorem countP_event_cons (s : State) (outs : List Output) :
    (outputOf s :: outs).countP (fun o => o.event.isSome) =
      s.event.toList.length + outs.countP fun o => o.event.isSome := by
  cases h : s.event <;> simp [outputOf, h, Nat.add_comm]

theorem pushCount_cons (i : Instr) (is : List Instr) : pushCount (i :: is) = pushCount [i] + pushCount is := by
  cases i <;> simp [pushCount, Nat.add_comm]

theorem windowsTile_append (start : Time) (rs rs' : List Stats) :
    windowsTile start (rs ++ rs') = (windowsTile start rs).bind fun mid => windowsTile mid rs' := by
  induction rs generalizing start with
  | nil => rfl
  | cons r rs ih =>
    simp only [List.cons_append, windowsTile, ih]
    split <;> rfl

/-- The open window of `s`, after a run with the records `rs`, `pushes` PUSHes and `packets` packets, has led to that of `t`:
the records tile the time from the one's start to the other's, and all bytes and packets are counted once (R98). -/
structure WindowsRun (rs : List Stats) (pushes packets : Nat) (s t : State) : Prop where
  tile : windowsTile s.windowStart rs = some t.windowStart
  bytes : (rs.map Stats.totalBytes).sum + t.totalBytes = s.totalBytes + BitVec.ofNat 64 pushes
  packets : (rs.map Stats.totalPackets).sum + t.totalPackets = s.totalPackets + BitVec.ofNat 64 packets

theorem WindowsRun.refl (s : State) : WindowsRun [] 0 0 s s := by
  constructor <;> simp [windowsTile]

theorem WindowsRun.trans {rs rs' : List Stats} {m m' n n' : Nat} {s s' t : State} (first : WindowsRun rs m n s s')
    (later : WindowsRun rs' m' n' s' t) : WindowsRun (rs ++ rs') (m + m') (n + n') s t where
  tile := by rw [windowsTile_append, first.tile, Option.bind_some, later.tile]
  bytes := by
    rw [List.map_append, List.sum_append, BitVec.add_assoc, later.bytes, ← BitVec.add_assoc, first.bytes,
      BitVec.ofNat_add, BitVec.add_assoc]
  packets := by
    rw [List.map_append, List.sum_append, BitVec.add_assoc, later.packets, ← BitVec.add_assoc, first.packets,
      BitVec.ofNat_add, BitVec.add_assoc]

@[simp] theorem pushByte_windowStart (b : Byte) (s : State) : (pushByte b s).windowStart = s.windowStart := by
  rcases pushByte_cases b s with ⟨-, e⟩ | ⟨-, e⟩ <;> simp [e]

theorem windowsRun_pushByte (b : Byte) (s : State) :
    WindowsRun (pushByte b s).stats.toList 1 (pushByte b s).event.toList.length s (pushByte b s) where
  tile := by simp [windowsTile]
  bytes := by simp
  packets := by simp [pushByte_totalPackets]

/-- A completed packet run by itself counts as a packet and as no byte (log entry 2). -/
theorem windowsRun_completePacket (d : DecodedPacket) (s : State) :
    WindowsRun [] 0 1 s (completePacket d (quiet s)) := by
  constructor <;> simp [windowsTile]

theorem windowsRun_pollAt (now : Time) (s : State) :
    WindowsRun (pollAt now s).stats.toList 0 (pollAt now s).event.toList.length s (pollAt now s) := by
  rcases pollAt_cases now s with ⟨-, e⟩ | ⟨-, -, e⟩ | ⟨-, -, e⟩ <;> rw [e]
  · exact { WindowsRun.refl s with }
  · constructor <;> simp [windowsTile, windowRecord]
  · exact { WindowsRun.refl s with }

/-- Every transaction but a RESET counts its byte and its packet in the window, and drives the record of one it closes. -/
theorem windowsRun_of_ne_reset {i : Instr} (h : ∀ now, i ≠ .reset now) {s t : State} (ran : exec i s = .next t) :
    WindowsRun t.stats.toList (pushCount [i]) t.event.toList.length s t := by
  cases i <;> cases ran
  case nop => exact { WindowsRun.refl s with }
  case push b => exact windowsRun_pushByte b s
  case poll now => exact windowsRun_pollAt now s
  case reset now => exact absurd rfl (h now)
  case pktWrite a d => exact windowsRun_completePacket _ s
  case pktRead a d => exact windowsRun_completePacket _ s
  case pktUnknown a d => exact windowsRun_completePacket _ s

/-- Settles O54: a run's windows and counts are those of its transactions, one after the other. -/
theorem windowsTileTimeAndTraffic : Obligations.WindowsTileTimeAndTraffic := by
  intro is s t outs noResets ran
  suffices run : WindowsRun (outputStats outs) (pushCount is) (outs.countP fun o => o.event.isSome) s t from
    ⟨run.tile, run.bytes, run.packets⟩
  induction is generalizing s outs with
  | nil =>
    cases ran
    exact .refl _
  | cons i is ih =>
    obtain ⟨notReset, restNoResets⟩ := noReset_cons noResets
    obtain ⟨s', outs', first, later, rfl⟩ := runAll_cons_cases ran
    rw [outputStats_cons, countP_event_cons, pushCount_cons]
    exact (windowsRun_of_ne_reset notReset first).trans (ih s' outs' restNoResets later)

/-! ### Runs without a POLL -/

theorem stats_eq_none_of_ne_poll {i : Instr} (h : ∀ now, i ≠ .poll now) {s t : State} (ran : exec i s = .next t) :
    t.stats = none := by
  obtain ⟨-, -, onlyPoll⟩ := outputsByTransaction i s t ran
  by_contra driven
  obtain ⟨now, polled, -⟩ := onlyPoll driven
  exact h now polled

theorem outputStats_eq_nil_of_noPoll {is : List Instr} {s t : State} {outs : List Output} (quietBus : noPoll is = true)
    (ran : runAll is s = some (outs, t)) : outputStats outs = [] := by
  induction is generalizing s outs with
  | nil =>
    cases ran
    rfl
  | cons i is ih =>
    obtain ⟨notPoll, restQuiet⟩ := noPoll_cons quietBus
    obtain ⟨s', outs', first, later, rfl⟩ := runAll_cons_cases ran
    rw [outputStats_cons, stats_eq_none_of_ne_poll notPoll first, ih restQuiet later]
    rfl

/-- Settles O55: no record is driven, and windows that no record ends tile the time only by standing still. -/
theorem onlyPollClosesWindow : Obligations.OnlyPollClosesWindow := by
  intro is s t outs quietBus ran
  have noRecord := outputStats_eq_nil_of_noPoll quietBus ran
  refine ⟨noRecord, fun noResets => ?_⟩
  obtain ⟨tile, -, -⟩ := windowsTileTimeAndTraffic is s t outs noResets ran
  rw [noRecord] at tile
  exact (Option.some.inj tile).symm

/-! ### A window with no PUSH -/

/-- The open window began at `now0`, has the duration of `c`, and has counted nothing (R93). -/
structure EmptyWindow (c : Config) (now0 : Time) (s : State) : Prop where
  cfg : s.cfg = c
  windowStart : s.windowStart = now0
  totalBytes : s.totalBytes = 0
  totalPackets : s.totalPackets = 0
  validPackets : s.validPackets = 0
  readCount : s.readCount = 0
  writeCount : s.writeCount = 0

theorem emptyWindow_resetAt (now0 : Time) (s : State) : EmptyWindow s.cfg now0 (resetAt now0 s) := by
  constructor <;> rfl

theorem emptyWindow_closeWindow (now0 : Time) (s : State) : EmptyWindow s.cfg now0 (closeWindow now0 s) := by
  constructor <;> rfl

theorem emptyWindow_construct {c : Config} {now0 : Time} {s : State} (built : construct c now0 = .ok s) :
    EmptyWindow c now0 s := by
  rw [construct] at built
  split at built <;> cases built
  constructor <;> rfl

theorem EmptyWindow.quiet {c : Config} {now0 : Time} {s : State} (h : EmptyWindow c now0 s) :
    EmptyWindow c now0 (quiet s) := { h with }

theorem EmptyWindow.windowRecord_eq {c : Config} {now0 : Time} {s : State} (h : EmptyWindow c now0 s) (now : Time) :
    windowRecord now s = ⟨now0, now, 0, 0, 0, 0, 0⟩ := by
  simp only [windowRecord, h.windowStart, h.totalBytes, h.totalPackets, h.validPackets, h.readCount, h.writeCount]

/-- A block that takes another transaction is not faulted (R102). -/
theorem fault_eq_none_of_runAll {is : List Instr} {s t : State} {outs : List Output} (more : is ≠ [])
    (ran : runAll is s = some (outs, t)) : s.fault = none := by
  cases is with
  | nil => exact absurd rfl more
  | cons i is =>
    rw [runAll] at ran
    split at ran
    next first => exact (guardStep_next first).2.1
    next => cases ran
    next => cases ran

/-- The transactions that leave an empty window open: NOPs, and POLLs before the window is due. -/
def KeepsWindow (c : Config) (now0 : Time) (i : Instr) : Prop :=
  i = .nop ∨ ∃ u, i = .poll u ∧ u.toNat < now0.toNat + c.windowTicks.toNat

/-- A NOP, or a POLL before the window is due that raises no fault, leaves an empty window open. -/
theorem EmptyWindow.exec {c : Config} {now0 : Time} {i : Instr} {s t : State} (h : EmptyWindow c now0 s)
    (keeps : KeepsWindow c now0 i) (ran : exec i s = .next t) (clear : t.fault = none) : EmptyWindow c now0 t := by
  obtain rfl | ⟨u, rfl, notDue⟩ := keeps <;> cases ran
  · exact h.quiet
  · rcases Nat.lt_or_ge u.toNat s.windowStart.toNat with early | late
    · simp [pollAt_early early] at clear
    · rw [pollAt_notDue late (by rwa [h.windowStart, h.cfg])]
      exact h.quiet

/-- An empty window stays empty until the due POLL, whose record shows it (R97). -/
theorem EmptyWindow.stats_of_runAll {c : Config} {now0 now : Time} {is : List Instr} {s t : State} {outs : List Output}
    (h : EmptyWindow c now0 s) (keeps : ∀ i ∈ is, KeepsWindow c now0 i)
    (due : now0.toNat + c.windowTicks.toNat ≤ now.toNat) (ran : runAll (is ++ [.poll now]) s = some (outs, t)) :
    t.stats = some ⟨now0, now, 0, 0, 0, 0, 0⟩ := by
  induction is generalizing s outs with
  | nil =>
    obtain ⟨s', outs', polled, done, -⟩ := runAll_cons_cases ran
    cases polled
    cases done
    rw [pollAt_due (by rwa [h.windowStart, h.cfg]), closeWindow_stats, h.quiet.windowRecord_eq]
  | cons i is ih =>
    obtain ⟨first, others⟩ := List.forall_mem_cons.1 keeps
    obtain ⟨s', outs', ranFirst, later, -⟩ := runAll_cons_cases ran
    exact ih (h.exec first ranFirst (fault_eq_none_of_runAll (by simp) later)) others later

/-- Settles O59: RESET, a closing POLL and construction each open an empty window; a record with no bytes and no valid
packets has the metrics 0. -/
theorem emptyWindowReportsZero : Obligations.EmptyWindowReportsZero := by
  intro now0 now is s t outs keeps due opened
  refine ⟨?_, by simp [throughputMBps], by simp [meanInterEventUs]⟩
  rcases opened with ran | ⟨closes, ran⟩ | ⟨built, ran⟩
  · obtain ⟨s', outs', reset, later, -⟩ := runAll_cons_cases ran
    cases reset
    exact (emptyWindow_resetAt now0 s).stats_of_runAll keeps due later
  · obtain ⟨s', outs', polled, later, -⟩ := runAll_cons_cases ran
    cases polled
    rw [pollAt_due closes] at later
    exact (emptyWindow_closeWindow now0 (quiet s)).stats_of_runAll keeps due later
  · exact (emptyWindow_construct built).stats_of_runAll keeps due ran

/-! ### The counters -/

theorem decodedPackets_length (c : Config) (bytes : List Byte) : (decodedPackets c bytes).length = bytes.length / 8 := by
  rw [decodedPackets, List.length_map, wholePackets_length]

/-- A counter that has counted fewer than 2^64 times from 0 holds the exact count (R99). -/
theorem toNat_of_counted_from_zero {n : Count} {k : Nat} (few : k < 2 ^ 64) (h : n = 0 + BitVec.ofNat 64 k) :
    n.toNat = k := by
  rw [h, zero_add, BitVec.toNat_ofNat, Nat.mod_eq_of_lt few]

/-- A chunk of fewer than 2^64 bytes in a fresh window leaves every counter at its exact count (R99). -/
theorem pushChunk_openWindow_exact (now : Time) {chunk : List Byte} {s : State} (bound : s.carry.length ≤ 7)
    (few : chunk.length < 2 ^ 64) :
    let ds := decodedPackets s.cfg (s.carry ++ chunk)
    let t := (pushChunk chunk (openWindow now s)).2
    t.totalBytes.toNat = chunk.length ∧ t.totalPackets.toNat = ds.length ∧
    t.validPackets.toNat = ds.countP (fun d => d.op != .unknown) ∧
    t.readCount.toNat = ds.countP (fun d => d.op == .read) ∧
    t.writeCount.toNat = ds.countP (fun d => d.op == .write) := by
  intro ds t
  have done := pushChunk_packetsCompleted chunk (openWindow now s) bound
  obtain ⟨bytes, packets⟩ := pushChunk_counts chunk (openWindow now s)
  obtain ⟨count, -⟩ := chunkPacketsByCount chunk (openWindow now s) bound
  have length : ds.length = (s.carry.length + chunk.length) / 8 := by
    rw [decodedPackets_length, List.length_append]
  have fits : ds.length < 2 ^ 64 := by omega
  have someFit (test : DecodedPacket → Bool) : ds.countP test < 2 ^ 64 := List.countP_le_length.trans_lt fits
  rw [count, openWindow_carry, ← length] at packets
  exact ⟨toNat_of_counted_from_zero few bytes, toNat_of_counted_from_zero fits packets,
    toNat_of_counted_from_zero (someFit _) done.validPackets, toNat_of_counted_from_zero (someFit _) done.readCount,
    toNat_of_counted_from_zero (someFit _) done.writeCount⟩

/-- Settles O43: a PUSH adds 1 to its byte's counter and, class by class, to those of the packet it completes. -/
theorem countersWrap : Obligations.CountersWrap := by
  refine ⟨fun b s => ⟨pushByte b s, rfl, pushByte_fault b s, ?_, fun short => ?_, fun full => ?_⟩,
    fun now _ _ => pushChunk_openWindow_exact now⟩
  · rw [pushByte_totalBytes]
    exact BitVec.toNat_add s.totalBytes 1
  · simp [pushByte_short b short]
  · rw [pushByte_full b full.ge]
    generalize decodePacket s.cfg (packetWord (s.carry ++ [b])) = d
    cases op : d.op <;> simp [op, opValid, seqFor]

end Sys2Proof.Machine

/-!
PROOFS. The pipeline: what a step does in a faulted, an idle and a busy block, the whole effect of NOP, PUSH and RESET, and
that a block whose environment keeps the time duty takes correct steps (spec/44_pipeline.md).
-/

namespace Sys2Proof.Machine

/-! ### The step of a faulted, an idle and a busy block -/

section
variable {s : State} (legal : configCheck s.cfg = true)
include legal

theorem step_faulted {r : Fault} (marked : s.fault = some r) : step s = .fault r := by
  simp [step, guardStep, legal, marked]

theorem step_idle (clear : s.fault = none) (empty : s.pending = []) : step s = .next (quiet s) := by
  simp [step, guardStep_open legal clear, takeTransaction, empty]

theorem step_issued (clear : s.fault = none) {C : Command} {rest : List Command} (issued : s.pending = C :: rest) :
    step s = exec (decodeCommand C) { s with pending := rest } := by
  simp [step, guardStep_open legal clear, takeTransaction, issued]

end

/-- Settles O6: the guard lets the transaction pass, and a command word decodes without the configuration. -/
theorem stepRunsDecodedInstruction : Obligations.StepRunsDecodedInstruction :=
  fun _ _ _ legal clear issued => step_issued legal clear issued

/-- Settles O8: the guard answers the mark, and the next command word is no part of the mark or the configuration. -/
theorem faultedStateTakesNoStep : Obligations.FaultedStateTakesNoStep :=
  fun s _ C legal marked => ⟨step_faulted legal marked, step_faulted (s := issueNext C s) legal marked⟩

/-! ### The whole effect of NOP, RESET and PUSH -/

/-- Settles O29: NOP answers the quiet state, which is the state before without its outputs. -/
theorem nopResult : Obligations.NopResult := fun _ => rfl

/-- Settles O3: RESET answers the reset values over the old state; the guard stops it in a faulted block. -/
theorem resetResult : Obligations.ResetResult :=
  ⟨fun _ _ => rfl, fun now r s legal marked => (faultedStateTakesNoStep s r (resetWord now) legal marked).2⟩

/-- Settles O30: below 7 carried bytes the byte is buffered; at 7 it completes the packet, whose class gives the counters, the
run flag and the event's number. -/
theorem pushResult : Obligations.PushResult := by
  intro b s
  refine ⟨fun short => congrArg Host.Outcome.next (pushByte_short b short), fun full => ?_⟩
  have completed := pushByte_full b full.ge
  generalize decodePacket s.cfg (packetWord (s.carry ++ [b])) = d at completed ⊢
  refine congrArg Host.Outcome.next (completed.trans ?_)
  obtain ⟨op, address, data⟩ := d
  cases op with
  | read => rfl
  | write => rfl
  | unknown => rfl

/-! ### Steps under the time duty -/

/-- A POLL that is not below the window's start leaves the fault mark as it was (R94, R115). -/
theorem pollAt_fault_of_late {now : Time} {s : State} (late : s.windowStart.toNat ≤ now.toNat) :
    (pollAt now s).fault = s.fault := by
  rcases pollAt_cases now s with ⟨early, -⟩ | ⟨-, -, e⟩ | ⟨-, -, e⟩
  · omega
  · rw [e, closeWindow_fault, quiet_fault]
  · rw [e, quiet_fault]

/-- Settles O47: an idle step keeps the mark, and so does every transaction but a POLL that breaks the time duty. -/
theorem timeDutyKeepsRunCorrect : Obligations.TimeDutyKeepsRunCorrect := by
  intro s inv clear duty
  cases issued : s.pending with
  | nil => exact ⟨quiet s, step_idle inv.legal clear issued, clear⟩
  | cons C rest =>
    rw [SafeStep, step_issued inv.legal clear issued]
    by_cases polls : ∃ now, decodeCommand C = .poll now
    · obtain ⟨now, polls⟩ := polls
      have late := duty now { s with pending := rest } (by simp [takeTransaction, issued, polls])
      rw [polls]
      exact ⟨_, rfl, (pollAt_fault_of_late (s := { s with pending := rest }) late).trans clear⟩
    · obtain ⟨t, ran, -, fault⟩ := exec_of_ne_poll (not_exists.1 polls) { s with pending := rest }
      exact ⟨t, ran, fault.trans clear⟩

end Sys2Proof.Machine

/-!
PROOFS. Exceptions: which steps raise the fault mark, what a time regression leaves and that the run ends there, and that a
configuration that fails the check has neither a block nor a step (spec/60_exceptions.md).
-/

namespace Sys2Proof.Machine

/-! ### Which steps raise the fault -/

/-- A POLL of an unfaulted block raises the fault exactly below the window's start (R94, R118 d). -/
theorem pollAt_fault_ne_none_iff {now : Time} {s : State} (clear : s.fault = none) :
    (pollAt now s).fault ≠ none ↔ now.toNat < s.windowStart.toNat := by
  rcases Nat.lt_or_ge now.toNat s.windowStart.toNat with early | late
  · simp [pollAt_early early, early]
  · simp [pollAt_fault_of_late late, clear, late]

/-- Of an unfaulted block's transactions, only a POLL below the window's start raises the fault (R118, R120). -/
theorem exec_fault_ne_none_iff {i : Instr} {s t : State} (clear : s.fault = none) (ran : exec i s = .next t) :
    t.fault ≠ none ↔ ∃ now, i = .poll now ∧ now.toNat < s.windowStart.toNat := by
  by_cases polls : ∃ now, i = .poll now
  · obtain ⟨now, rfl⟩ := polls
    cases ran
    simp [pollAt_fault_ne_none_iff clear]
  · obtain ⟨t', ran', -, kept⟩ := exec_of_ne_poll (not_exists.1 polls) s
    cases ran'.symm.trans ran
    have noPoll : ¬ ∃ now, i = .poll now ∧ now.toNat < s.windowStart.toNat := fun ⟨now, e, _⟩ => polls ⟨now, e⟩
    exact iff_of_false (not_not.2 (kept.trans clear)) noPoll

/-- Settles O39: an idle step keeps the mark, and an issued transaction raises it exactly as a POLL below the window's start. -/
theorem onlyPollRaisesFault : Obligations.OnlyPollRaisesFault := by
  intro s t stepped
  obtain ⟨-, clear, ⟨empty, rfl⟩ | ⟨C, rest, issued, ran⟩⟩ := step_cases stepped
  · simp [takeTransaction, empty, clear]
  · rw [exec_fault_ne_none_iff (s := { s with pending := rest }) clear ran]
    simp [takeTransaction, issued]

/-! ### The course of a time regression -/

/-- Settles O38: the issued POLL is early, so it leaves a quiet state with the mark, and a marked state takes no step. -/
theorem timeRegressionStopsTheRun : Obligations.TimeRegressionStopsTheRun := by
  intro now rest s legal clear issued early
  refine ⟨_, ?_, rfl, ?_⟩
  · rw [step_issued legal clear issued, decodeCommand_pollWord]
    exact pollTimeRegressionFaults now { s with pending := rest } clear early
  · refine step_faulted ?_ rfl
    exact legal

/-! ### Invalid configurations -/

/-- Construction refuses a configuration that fails the check (R116). -/
theorem construct_of_illegal {c : Config} (illegal : configCheck c = false) (now0 : Time) :
    construct c now0 = .error .invalidConfig :=
  if_neg (ne_true_of_eq_false illegal)

/-- Construction builds a block of every legal configuration (R116, R128). -/
theorem exists_construct_of_legal {c : Config} (legal : configCheck c = true) (now0 : Time) :
    ∃ s, construct c now0 = .ok s ∧ s.cfg = c :=
  ⟨_, if_pos legal, rfl⟩

/-- The invalid configuration comes before everything else that a step reads, the fault mark included (R120). -/
theorem step_of_illegal {s : State} (illegal : configCheck s.cfg = false) : step s = .refused .invalidConfig :=
  if_neg (ne_true_of_eq_false illegal)

/-- Settles O5: construction and the guard of the step make the same check, which this hardware's configuration passes. -/
theorem invalidConfigHasNoBlock : Obligations.InvalidConfigHasNoBlock := by
  obtain ⟨launch, built, -⟩ := exists_construct_of_legal configCheck_hw Config.launchTime
  exact ⟨fun _ now0 illegal => construct_of_illegal illegal now0, fun _ => step_of_illegal,
    fun _ now0 legal => exists_construct_of_legal legal now0, launch, built⟩

end Sys2Proof.Machine

/-!
PROOFS. The launch: construction of a block and RESET leave the same state (spec/70_reset_and_hazards.md).
-/

namespace Sys2Proof.Machine

/-- A legal configuration is constructed to what RESET leaves of any unfaulted state that has it and nothing issued: RESET
keeps just the configuration, the mark and the transactions to come, and sets every other field (R26, R128). -/
theorem construct_eq_resetAt {s : State} (legal : configCheck s.cfg = true) (clear : s.fault = none) (empty : s.pending = [])
    (now0 : Time) : construct s.cfg now0 = .ok (resetAt now0 s) := by
  have reset_is_launch : resetAt now0 s =
      { cfg := s.cfg, carry := [], runActive := false, seqNext := s.cfg.seqBase, windowStart := now0, totalBytes := 0,
        totalPackets := 0, validPackets := 0, readCount := 0, writeCount := 0, fault := none, event := none, stats := none,
        pending := [] } := by
    ext1 <;> simp [clear, empty]
  rw [reset_is_launch]
  exact if_pos legal

/-- Only a legal configuration is constructed (R116). -/
theorem legal_of_construct {c : Config} {now0 : Time} {s : State} (built : construct c now0 = .ok s) :
    configCheck c = true := by
  by_contra illegal
  rw [construct_of_illegal (eq_false_of_ne_true illegal)] at built
  cases built

/-- Settles O2: a block that was constructed has a legal configuration, so its state is RESET's; and RESET at the launch time
leaves this hardware's launch state as it is. -/
theorem launchIsResetState : Obligations.LaunchIsResetState := by
  refine ⟨?_, construct_eq_resetAt (s := State.reset) configCheck_hw rfl rfl Config.launchTime⟩
  rintro _ now0 s0 s built rfl clear empty
  have same := construct_eq_resetAt (legal_of_construct built) clear empty now0
  obtain rfl : s0 = resetAt now0 s := Except.ok.inj (built.symm.trans same)
  exact ⟨rfl, clear⟩

end Sys2Proof.Machine

/-!
PROOFS. The idle step and the placed instruction: the model's own choices of log entries 1 and 2 (spec/44_pipeline.md,
spec/70_reset_and_hazards.md R139).
-/

namespace Sys2Proof.Machine

/-! ### The idle step -/

/-- Settles O7: the idle step answers the quiet state, which is the state before without its outputs. -/
theorem idleStepKeepsState : Obligations.IdleStepKeepsState :=
  fun _ legal clear empty => step_idle legal clear empty

/-! ### A packet as an instruction -/

/-- The instruction of a decoded packet, whatever its class, completes that packet in a quiet state (R76, R77, R78). -/
theorem exec_toInstr (d : DecodedPacket) (s : State) : exec d.toInstr s = .next (completePacket d (quiet s)) := by
  obtain ⟨op, address, data⟩ := d
  cases op <;> rfl

/-- Settles O31: the completing PUSH completes the packet of its 8 bytes, and that packet's instruction does the same. -/
theorem packetRunsInsidePush : Obligations.PacketRunsInsidePush := by
  intro b s full
  rw [decode, exec_toInstr]
  exact congrArg Host.Outcome.next (pushByte_full b full.ge)

/-! ### The placed instruction -/

/-- No packet word is lost by cutting it into its bytes: both registers are read back from their 4 bytes (R37). -/
theorem packetWord_packetBytes (P : Packet) : packetWord (packetBytes P) = P := by
  obtain ⟨low, high, -⟩ := packetWordLittleEndian (P.extractLsb' 0 8) (P.extractLsb' 8 8) (P.extractLsb' 16 8)
    (P.extractLsb' 24 8) (P.extractLsb' 32 8) (P.extractLsb' 40 8) (P.extractLsb' 48 8) (P.extractLsb' 56 8)
  have lowKept : regA (packetWord (packetBytes P)) = regA P := low.trans (extractLsb'_eq_le32 P 0).symm
  have highKept : regB (packetWord (packetBytes P)) = regB P := high.trans (extractLsb'_eq_le32 P 32).symm
  rw [packet_eq_registers (packetWord (packetBytes P)), lowKept, highKept, ← packet_eq_registers P]

section
variable {s : State} (legal : configCheck s.cfg = true) (clear : s.fault = none)
include legal clear

theorem step_issueNext_open (C : Command) : step (issueNext C s) = exec (decodeCommand C) s := by
  rw [step_issueNext, guardStep_open legal clear]

/-- The step of a placed packet is the PUSH of its 8th byte onto the other 7, which runs the packet's instruction. -/
theorem step_placePacket (P : Packet) :
    step (placePacket P s) = exec (decode s.cfg (.pkt P)) { s with carry := [], totalBytes := s.totalBytes + 1 } := by
  let held := setCarry ((packetBytes P).take 7) s
  calc step (placePacket P s)
      = exec (.push (P.extractLsb' 56 8)) held := by
        rw [placePacket, step_issueNext_open (s := held) legal clear, decodeCommand_pushWord]
    _ = exec (decode s.cfg (.pkt (packetWord (packetBytes P)))) { s with carry := [], totalBytes := s.totalBytes + 1 } :=
        packetRunsInsidePush _ held rfl
    _ = exec (decode s.cfg (.pkt P)) { s with carry := [], totalBytes := s.totalBytes + 1 } := by
        rw [packetWord_packetBytes]

end

/-- Settles O9: 64 bits are placed as a packet, which its PUSH runs; 72 bits as the environment's next command. -/
theorem placedInstructionRuns : Obligations.PlacedInstructionRuns :=
  fun _ w legal clear => ⟨step_placePacket legal clear (BitVec.ofNat 64 w),
    step_issueNext_open legal clear (BitVec.ofNat 66 w)⟩

end Sys2Proof.Machine
